-- ==== Sys2Proof/Word.lean ====
section
/-! DEFINITION. The two word types of the block: a byte, and the 32-bit command and result word
(00_scope R10). Bit 0 is the least significant bit and every value is unsigned (00_scope R13). -/

namespace Sys2Proof

/-- A byte: a stream byte, a RAM byte, an 8-bit operand or an 8-bit register. -/
abbrev Byte := BitVec 8

/-- The 32-bit command word `cmd` and result word `rsp_res` (00_scope R10, 30_encoding R70). -/
abbrev Word := BitVec 32

end Sys2Proof
end

