-- ==== Sys2Proof/Syntax.lean ====
section
/-! DEFINITION. The 19 commands of spec/opcode_table.json (30_encoding R73), each with the operand
fields its format gives it (30_encoding R71), and their mnemonics. -/

namespace Sys2Proof

/-- The commands, one constructor per row of the opcode table, in the table's order. -/
inductive Instr where
  /-- NOP, format Z (40_control R100). -/
  | nop
  /-- WCTRL, format B: bit 0 of `b` is the new STRICT value; bits 7:1 must be zero (R101). -/
  | wctrl (b : Byte)
  /-- WBASE, format A: the new base address (R102). -/
  | wbase (imm21 : BitVec 21)
  /-- RREG, format B: a register selector, at most 0x0C (R103). -/
  | rreg (sel : Byte)
  /-- MEMWR, format M: a RAM offset and the byte to write (41_memory_access R111). -/
  | memwr (addr : BitVec 16) (d : Byte)
  /-- MEMRD, format MR: a RAM offset (R110). -/
  | memrd (addr : BitVec 16)
  /-- CKCLR, format Z (42_checksum R131). -/
  | ckclr
  /-- CKADD, format B: one byte of the checksummed sequence (R132). -/
  | ckadd (b : Byte)
  /-- CKGET, format Z (R133). -/
  | ckget
  /-- CKVFY, format B: a received checksum byte (R134). -/
  | ckvfy (b : Byte)
  /-- AENC, format A: the offset added to ABASE (43_address R152). -/
  | aenc (imm21 : BitVec 21)
  /-- ADEC, format T: the three bytes of a received triple (R153). -/
  | adec (h m l : Byte)
  /-- CTOA, format B: an internal character code byte (44_charset R174). -/
  | ctoa (b : Byte)
  /-- CTOI, format B: a character byte (R175). -/
  | ctoi (b : Byte)
  /-- FRSTART, format L: the number of RAM bytes to frame (45_framer R190). -/
  | frstart (len : BitVec 24)
  /-- FRPOP, format Z (R191). -/
  | frpop
  /-- DFSTART, format Z (46_deframer R220). -/
  | dfstart
  /-- DFPUSH, format B: the next byte of the stream (R221). -/
  | dfpush (b : Byte)
  /-- DFEND, format Z (R230). -/
  | dfend
  deriving DecidableEq, Repr

/-- The mnemonics of 30_encoding R73. -/
inductive Mnemonic where
  | NOP | WCTRL | WBASE | RREG | MEMWR | MEMRD | CKCLR | CKADD | CKGET | CKVFY
  | AENC | ADEC | CTOA | CTOI | FRSTART | FRPOP | DFSTART | DFPUSH | DFEND
  deriving DecidableEq, Repr

/-- The mnemonic of a command (30_encoding R73). -/
def Instr.mnemonic : Instr → Mnemonic
  | .nop => .NOP
  | .wctrl _ => .WCTRL
  | .wbase _ => .WBASE
  | .rreg _ => .RREG
  | .memwr _ _ => .MEMWR
  | .memrd _ => .MEMRD
  | .ckclr => .CKCLR
  | .ckadd _ => .CKADD
  | .ckget => .CKGET
  | .ckvfy _ => .CKVFY
  | .aenc _ => .AENC
  | .adec _ _ _ => .ADEC
  | .ctoa _ => .CTOA
  | .ctoi _ => .CTOI
  | .frstart _ => .FRSTART
  | .frpop => .FRPOP
  | .dfstart => .DFSTART
  | .dfpush _ => .DFPUSH
  | .dfend => .DFEND

end Sys2Proof
end

