-- ==== Sys2Proof/WellFormed.lean ====
section
/-! DEFINITION. Which terms of Instr stand for a command word: the extra conditions of 30_encoding R73.
The field widths of Instr carry every other condition. The range checks that depend on a value
(offsets, lengths, triple components, character codes) are not well-formedness conditions (R73). -/

namespace Sys2Proof

/-- WCTRL: `b[7:1] = 0` (30_encoding R73, R76). -/
def wctrlOperandOk (b : Byte) : Bool := b.toNat ≤ 1

/-- RREG: `b ≤ 0x0C` (30_encoding R73, R76). -/
def rregSelectorOk (sel : Byte) : Bool := sel.toNat ≤ 0x0C

/-- A command that has a word (30_encoding R73, R76). -/
def Instr.wellFormed : Instr → Bool
  | .nop => true
  | .wctrl b => wctrlOperandOk b
  | .wbase _ => true
  | .rreg sel => rregSelectorOk sel
  | .memwr _ _ => true
  | .memrd _ => true
  | .ckclr => true
  | .ckadd _ => true
  | .ckget => true
  | .ckvfy _ => true
  | .aenc _ => true
  | .adec _ _ _ => true
  | .ctoa _ => true
  | .ctoi _ => true
  | .frstart _ => true
  | .frpop => true
  | .dfstart => true
  | .dfpush _ => true
  | .dfend => true

end Sys2Proof
end

