-- ==== Sys2Proof/Decode.lean ====
section
/-! DEFINITION. The command word: its fields and formats (30_encoding R71, R72), the decoder with its
named rejections (R75, R76), the encoder, and the match-and-mask table with the well-formedness check
written as the spec writes it (R74, R76). -/

namespace Sys2Proof

/-- Why a word is illegal (30_encoding R75, R76). Every one of these is answered ILLEGAL. -/
inductive IllegalWord where
  /-- The opcode is in no row of R73. -/
  | reservedOpcode (op : Byte)
  /-- A bit the format of the opcode requires to be zero is set. -/
  | reservedBitSet (op : Byte)
  /-- WCTRL with a bit of `b[7:1]` set. -/
  | controlOperand (b : Byte)
  /-- RREG with a selector above 0x0C. -/
  | registerSelector (sel : Byte)
  deriving DecidableEq, Repr

/-! ## Fields (30_encoding R71) -/

/-- The opcode, `w[31:24]`. -/
def fieldOpcode (w : Word) : Byte := w.extractLsb' 24 8

/-- `b = w[7:0]` of format B. -/
def fieldB (w : Word) : Byte := w.extractLsb' 0 8

/-- `imm21 = w[20:0]` of format A. -/
def fieldImm21 (w : Word) : BitVec 21 := w.extractLsb' 0 21

/-- `h = w[23:16]` of format T. -/
def fieldH (w : Word) : Byte := w.extractLsb' 16 8

/-- `m = w[15:8]` of format T. -/
def fieldM (w : Word) : Byte := w.extractLsb' 8 8

/-- `l = w[7:0]` of format T. -/
def fieldL (w : Word) : Byte := w.extractLsb' 0 8

/-- `addr = w[23:8]` of formats M and MR. -/
def fieldAddr (w : Word) : BitVec 16 := w.extractLsb' 8 16

/-- `d = w[7:0]` of format M. -/
def fieldD (w : Word) : Byte := w.extractLsb' 0 8

/-- `len = w[23:0]` of format L. -/
def fieldLen (w : Word) : BitVec 24 := w.extractLsb' 0 24

/-! ## Formats (30_encoding R71) -/

/-- Format Z: bits 23:0 must be zero. -/
def formatZ (w : Word) (i : Instr) : Except IllegalWord Instr :=
  if w.extractLsb' 0 24 = 0#24 then .ok i else .error (.reservedBitSet (fieldOpcode w))

/-- Format B: bits 23:8 must be zero. -/
def formatB (w : Word) (mk : Byte → Except IllegalWord Instr) : Except IllegalWord Instr :=
  if w.extractLsb' 8 16 = 0#16 then mk (fieldB w) else .error (.reservedBitSet (fieldOpcode w))

/-- Format A: bits 23:21 must be zero. -/
def formatA (w : Word) (mk : BitVec 21 → Instr) : Except IllegalWord Instr :=
  if w.extractLsb' 21 3 = 0#3 then .ok (mk (fieldImm21 w))
  else .error (.reservedBitSet (fieldOpcode w))

/-- Format MR: bits 7:0 must be zero. -/
def formatMR (w : Word) (mk : BitVec 16 → Instr) : Except IllegalWord Instr :=
  if w.extractLsb' 0 8 = 0#8 then .ok (mk (fieldAddr w))
  else .error (.reservedBitSet (fieldOpcode w))

/-- WCTRL's operand (30_encoding R73). -/
def decodeControl (b : Byte) : Except IllegalWord Instr :=
  if wctrlOperandOk b then .ok (.wctrl b) else .error (.controlOperand b)

/-- RREG's operand (30_encoding R73). -/
def decodeSelector (sel : Byte) : Except IllegalWord Instr :=
  if rregSelectorOk sel then .ok (.rreg sel) else .error (.registerSelector sel)

/-- The decoder: the command a word stands for, or the name of what makes it illegal
(30_encoding R73, R75, R76). Formats T, M and L have no reserved bit. -/
def decode (w : Word) : Except IllegalWord Instr :=
  match fieldOpcode w with
  | 0x00#8 => formatZ w .nop
  | 0x01#8 => formatB w decodeControl
  | 0x02#8 => formatA w .wbase
  | 0x03#8 => formatB w decodeSelector
  | 0x08#8 => .ok (.memwr (fieldAddr w) (fieldD w))
  | 0x09#8 => formatMR w .memrd
  | 0x10#8 => formatZ w .ckclr
  | 0x11#8 => formatB w fun b => .ok (.ckadd b)
  | 0x12#8 => formatZ w .ckget
  | 0x13#8 => formatB w fun b => .ok (.ckvfy b)
  | 0x20#8 => formatA w .aenc
  | 0x21#8 => .ok (.adec (fieldH w) (fieldM w) (fieldL w))
  | 0x30#8 => formatB w fun b => .ok (.ctoa b)
  | 0x31#8 => formatB w fun b => .ok (.ctoi b)
  | 0x40#8 => .ok (.frstart (fieldLen w))
  | 0x41#8 => formatZ w .frpop
  | 0x48#8 => formatZ w .dfstart
  | 0x49#8 => formatB w fun b => .ok (.dfpush b)
  | 0x4A#8 => formatZ w .dfend
  | op => .error (.reservedOpcode op)

/-- The opcode-table host's reading of `decode`: the word whose bits are the low `nbits` bits of `w`,
zero above; a value past 32 bits is no command word (30_encoding R70). -/
def decodeTableWord (nbits w : Nat) : Option Instr :=
  if w % 2 ^ nbits < 2 ^ 32 then (decode (BitVec.ofNat 32 (w % 2 ^ nbits))).toOption else none

/-! ## The encoder (30_encoding R71, R73) -/

/-- The opcode in bits 31:24. -/
def opcodeBits (op : Byte) : Word := op.setWidth 32 <<< 24

/-- A word of format Z. -/
def wordZ (op : Byte) : Word := opcodeBits op

/-- A word of format B. -/
def wordB (op b : Byte) : Word := opcodeBits op ||| b.setWidth 32

/-- A word of format A. -/
def wordA (op : Byte) (imm21 : BitVec 21) : Word := opcodeBits op ||| imm21.setWidth 32

/-- A word of format T. -/
def wordT (op h m l : Byte) : Word :=
  opcodeBits op ||| (h.setWidth 32 <<< 16) ||| (m.setWidth 32 <<< 8) ||| l.setWidth 32

/-- A word of format M. -/
def wordM (op : Byte) (addr : BitVec 16) (d : Byte) : Word :=
  opcodeBits op ||| (addr.setWidth 32 <<< 8) ||| d.setWidth 32

/-- A word of format MR. -/
def wordMR (op : Byte) (addr : BitVec 16) : Word := opcodeBits op ||| (addr.setWidth 32 <<< 8)

/-- A word of format L. -/
def wordL (op : Byte) (len : BitVec 24) : Word := opcodeBits op ||| len.setWidth 32

/-- The word of a command (30_encoding R71, R73). -/
def encode : Instr → Word
  | .nop => wordZ 0x00
  | .wctrl b => wordB 0x01 b
  | .wbase imm21 => wordA 0x02 imm21
  | .rreg sel => wordB 0x03 sel
  | .memwr addr d => wordM 0x08 addr d
  | .memrd addr => wordMR 0x09 addr
  | .ckclr => wordZ 0x10
  | .ckadd b => wordB 0x11 b
  | .ckget => wordZ 0x12
  | .ckvfy b => wordB 0x13 b
  | .aenc imm21 => wordA 0x20 imm21
  | .adec h m l => wordT 0x21 h m l
  | .ctoa b => wordB 0x30 b
  | .ctoi b => wordB 0x31 b
  | .frstart len => wordL 0x40 len
  | .frpop => wordZ 0x41
  | .dfstart => wordZ 0x48
  | .dfpush b => wordB 0x49 b
  | .dfend => wordZ 0x4A

/-- The opcode map (30_encoding R73). -/
def opcodeOf : Mnemonic → Byte
  | .NOP => 0x00
  | .WCTRL => 0x01
  | .WBASE => 0x02
  | .RREG => 0x03
  | .MEMWR => 0x08
  | .MEMRD => 0x09
  | .CKCLR => 0x10
  | .CKADD => 0x11
  | .CKGET => 0x12
  | .CKVFY => 0x13
  | .AENC => 0x20
  | .ADEC => 0x21
  | .CTOA => 0x30
  | .CTOI => 0x31
  | .FRSTART => 0x40
  | .FRPOP => 0x41
  | .DFSTART => 0x48
  | .DFPUSH => 0x49
  | .DFEND => 0x4A

/-! ## Match and mask (30_encoding R74, R76) -/

/-- One row of the match-and-mask table of 30_encoding R74. -/
structure OpcodeRow where
  mnemonic : Mnemonic
  matchBits : Word
  mask : Word
  deriving DecidableEq, Repr

/-- The table of 30_encoding R74. -/
def opcodeTable : List OpcodeRow :=
  [⟨.NOP, 0x00000000, 0xFFFFFFFF⟩,
   ⟨.WCTRL, 0x01000000, 0xFFFFFFFE⟩,
   ⟨.WBASE, 0x02000000, 0xFFE00000⟩,
   ⟨.RREG, 0x03000000, 0xFFFFFF00⟩,
   ⟨.MEMWR, 0x08000000, 0xFF000000⟩,
   ⟨.MEMRD, 0x09000000, 0xFF0000FF⟩,
   ⟨.CKCLR, 0x10000000, 0xFFFFFFFF⟩,
   ⟨.CKADD, 0x11000000, 0xFFFFFF00⟩,
   ⟨.CKGET, 0x12000000, 0xFFFFFFFF⟩,
   ⟨.CKVFY, 0x13000000, 0xFFFFFF00⟩,
   ⟨.AENC, 0x20000000, 0xFFE00000⟩,
   ⟨.ADEC, 0x21000000, 0xFF000000⟩,
   ⟨.CTOA, 0x30000000, 0xFFFFFF00⟩,
   ⟨.CTOI, 0x31000000, 0xFFFFFF00⟩,
   ⟨.FRSTART, 0x40000000, 0xFF000000⟩,
   ⟨.FRPOP, 0x41000000, 0xFFFFFFFF⟩,
   ⟨.DFSTART, 0x48000000, 0xFFFFFFFF⟩,
   ⟨.DFPUSH, 0x49000000, 0xFFFFFF00⟩,
   ⟨.DFEND, 0x4A000000, 0xFFFFFFFF⟩]

/-- A word selects a row: `(w & mask) = match` (30_encoding R74). -/
def OpcodeRow.selects (r : OpcodeRow) (w : Word) : Bool := w &&& r.mask == r.matchBits

/-- `WellFormed(w)` as 30_encoding R76 writes it. -/
def wellFormedWord (w : Word) : Bool :=
  opcodeTable.any fun r =>
    fieldOpcode r.matchBits == fieldOpcode w
      && r.selects w
      && (fieldOpcode w != 0x01#8 || w.extractLsb' 1 7 == 0#7)
      && (fieldOpcode w != 0x03#8 || (fieldB w).toNat ≤ 0x0C)

end Sys2Proof
end

