-- ==== Sys2Proof/Config.lean ====
section
/-! DEFINITION. The fixed parameters of 00_scope R7, the character table of 44_charset R170, and the
free values: RAM_INIT (00_scope R8) and the reset content of DF_MBUF (10_state R28).
RSP_LATENCY, the other open parameter of R8, has no place here: no rule depends on it (log entry 9). -/

namespace Sys2Proof.Config

/-- `CHUNK_MAX`: the content bytes of one generated message, at most (00_scope R7). -/
@[simp] def chunkMax : Nat := 256

/-- `HDR`: exclusive status, manufacturer, device, model and command id (00_scope R7, 45_framer R195). -/
def header : List Byte := [0xF0, 0x41, 0x00, 0x14, 0x12]

/-- `EOX`: the terminator (00_scope R7). -/
def eox : Byte := 0xF7

/-- `MSG_MAX`: the bytes of the longest message (00_scope R7). -/
@[simp] def msgMax : Nat := 266

/-- `MSG_MIN`: the bytes of a message with no content (00_scope R7). -/
@[simp] def msgMin : Nat := 10

/-- `P_SIZE`: the bytes of patch memory (00_scope R7). -/
@[simp] def pSize : Nat := 0x7000

/-- `R_SIZE`: the bytes of reverb memory (00_scope R7). -/
@[simp] def rSize : Nat := 0x1780

/-- `RAM_SIZE` (00_scope R7, 20_memory R50). -/
@[simp] def ramSize : Nat := 0x8780

/-- `P_BASE`: the RAM offset of patch memory (00_scope R7, 20_memory R51). -/
@[simp] def pBase : Nat := 0x0000

/-- `R_BASE`: the RAM offset of reverb memory (00_scope R7, 20_memory R51). -/
@[simp] def rBase : Nat := 0x7000

/-- `CHARSET_N`: the internal character codes (00_scope R7). -/
@[simp] def charsetN : Nat := 64

/-- `BANK_BASE`: the SysEx base address of bank patch data (00_scope R7, 20_memory R52). -/
def bankBase : BitVec 21 := 0x8000

/-- The internal character table, index = code, each entry the ASCII byte the spec gives
(44_charset R170; the byte values are the spec's G1, log entry 12). -/
def charTable : List Byte :=
  [0x20,
   0x41, 0x42, 0x43, 0x44, 0x45, 0x46, 0x47, 0x48, 0x49, 0x4A, 0x4B, 0x4C, 0x4D,
   0x4E, 0x4F, 0x50, 0x51, 0x52, 0x53, 0x54, 0x55, 0x56, 0x57, 0x58, 0x59, 0x5A,
   0x61, 0x62, 0x63, 0x64, 0x65, 0x66, 0x67, 0x68, 0x69, 0x6A, 0x6B, 0x6C, 0x6D,
   0x6E, 0x6F, 0x70, 0x71, 0x72, 0x73, 0x74, 0x75, 0x76, 0x77, 0x78, 0x79, 0x7A,
   0x31, 0x32, 0x33, 0x34, 0x35, 0x36, 0x37, 0x38, 0x39, 0x30, 0x2D]

/-- `RAM_INIT` (00_scope R8): the byte each RAM offset holds after power-up. A free value: nothing
in Lean can evaluate it, so a claim holds for every content (70_reset R302; log entry 3). -/
opaque ramInit : Nat → Byte

/-- The byte each index of DF_MBUF holds after reset. A free value; the spec calls it unspecified and
never read before written (10_state R22, R28; log entry 4). -/
opaque mbufInit : Nat → Byte

end Sys2Proof.Config
end

