-- ==== Sys2Proof/Machine/Codec.lean ====
section
/-! DEFINITION. The functions over bytes that several rules use (00_scope R15): the checksum, the
address triple, the character transcoder, the region test. No state. -/

namespace Sys2Proof.Machine

/-! ## Checksum (42_checksum R130) -/

/-- `Checksum(s)`: `0x80 - (s mod 0x80)`, a result of exactly 0x80 mapped to 0 (R130). -/
def checksum (s : Byte) : Byte :=
  let t : Byte := 0x80#8 - s % 0x80#8
  if t = 0x80#8 then 0#8 else t

/-- The sum modulo 256 of a byte sequence (42_checksum R130, 45_framer R193, 46_deframer R227). -/
def sumBytes : List Byte → Byte
  | [] => 0#8
  | b :: bs => b + sumBytes bs

/-! ## Address triple (43_address R150, R151) -/

/-- An address triple: three 7-bit values, each held in its wire byte (00_scope R16). -/
structure Triple where
  h : Byte
  m : Byte
  l : Byte
  deriving DecidableEq, Repr

/-- `Enc21(a)` (43_address R150). -/
def enc21 (a : BitVec 21) : Triple where
  h := ((a >>> 14) &&& 0x7F#21).setWidth 8
  m := ((a >>> 7) &&& 0x7F#21).setWidth 8
  l := (a &&& 0x7F#21).setWidth 8

/-- `{0x00, h, m, l}`: h in bits 23:16, m in 15:8, l in 7:0 (43_address R151). -/
def packTriple (t : Triple) : Word :=
  (t.h.setWidth 32 <<< 16) ||| (t.m.setWidth 32 <<< 8) ||| t.l.setWidth 32

/-- The invariant of a triple: each component at most 0x7F (43_address R153). -/
def tripleInRange (h m l : Byte) : Bool := h ≤ 0x7F#8 && m ≤ 0x7F#8 && l ≤ 0x7F#8

/-- `(h << 14) | (m << 7) | l` (43_address R153). -/
def decodeTriple (h m l : Byte) : Word :=
  (h.setWidth 32 <<< 14) ||| (m.setWidth 32 <<< 7) ||| l.setWidth 32

/-! ## Character transcoder (44_charset R172, R173) -/

/-- `ToAscii(c)`; `none` is the rule's OutOfRange (44_charset R172). -/
def toAscii (c : Byte) : Option Byte :=
  if 64#8 ≤ c then none
  else if c = 0#8 then some 0x20#8
  else if c ≤ 26#8 then some (0x40#8 + c)
  else if c ≤ 52#8 then some (0x61#8 + (c - 27#8))
  else if c ≤ 61#8 then some (0x31#8 + (c - 53#8))
  else if c = 62#8 then some 0x30#8
  else some 0x2D#8

/-- `ToCode(ch)` (44_charset R173). -/
def toCode (ch : Byte) : Byte :=
  if ch = 0x20#8 then 0#8
  else if 0x41#8 ≤ ch ∧ ch ≤ 0x5A#8 then ch - 0x40#8
  else if 0x61#8 ≤ ch ∧ ch ≤ 0x7A#8 then ch - 0x61#8 + 27#8
  else if 0x31#8 ≤ ch ∧ ch ≤ 0x39#8 then ch - 0x31#8 + 53#8
  else if ch = 0x30#8 then 62#8
  else if ch = 0x2D#8 then 63#8
  else 63#8

/-! ## Region test (46_deframer R226) -/

/-- `IsReverb(h, m)`, on the raw bytes (46_deframer R226). -/
def isReverb (h m : Byte) : Bool := 0x03#8 < h || (h == 0x03#8 && 0x60#8 ≤ m)

end Sys2Proof.Machine
end

