-- ==== Sys2Proof/Machine/State.lean ====
section
/-! DEFINITION. The state of the block: every register of 10_state R22, RAM, the ports of 00_scope R10;
the reasons a step can stop; the state after reset (70_reset R300). -/

namespace Sys2Proof.Machine

/-- The error codes of 60_exceptions R260 by name. Codes 12 to 15 are never produced, so they have no
name (log entry 7). Their numbers are `ErrorCode.code` in Machine/Flags.lean. -/
inductive ErrorCode where
  | ok | header | size | charRange | cksum | frameShort | frameLong | trunc
  | addrRange | lenRange | memRange | illegal
  deriving DecidableEq, Repr

/-- The framer's phases of 10_state R26. Values 12 to 15 of FR_PHASE are never written, so they have
no name (log entry 7). Their numbers are `FramerPhase.code` in Machine/Operands.lean. -/
inductive FramerPhase where
  | idle | h0 | h1 | h2 | h3 | h4 | ah | am | al | data | ck | eox
  deriving DecidableEq, Repr

/-- What the host drives on the block's inputs for one step (00_scope R10; log entry 1). -/
structure HostInput where
  /-- `rst`: reset is asserted (70_reset R300). -/
  rst : Bool
  /-- `cmd_valid`: the host presents a command. -/
  cmdValid : Bool
  /-- `cmd`: the command word presented. -/
  cmd : Word
  deriving DecidableEq, Repr

/-- Bytes at addresses, the addresses strictly rising. An address that is not listed holds the byte it
held at power-up; what that byte is, the reader of the memory says (log entries 3 and 4). -/
abbrev Memory := List Host.Cell

/-- The state of the block and of its ports. -/
structure State where
  /-- `CTRL.STRICT` (10_state R23). -/
  ctrlStrict : Bool
  /-- `ABASE` (R24). -/
  abase : BitVec 21
  /-- `CKACC` (R25). -/
  ckacc : Byte
  /-- `DF_PCNT` (R29). -/
  dfPcnt : BitVec 15
  /-- `DF_RCNT` (R29). -/
  dfRcnt : BitVec 13
  /-- `DF_MLEN` (R28). -/
  dfMlen : BitVec 9
  /-- `DF_STAT.DF_ERR` (R30). -/
  dfErr : ErrorCode
  /-- `DF_STAT.P_OVF` (R30). -/
  pOvf : Bool
  /-- `DF_STAT.R_OVF` (R30). -/
  rOvf : Bool
  /-- `DF_STAT.CK_WARN` (R30). -/
  ckWarn : Bool
  /-- `FR_PHASE` (R26). -/
  frPhase : FramerPhase
  /-- `FR_POS` (R27). -/
  frPos : BitVec 16
  /-- `FR_LEN` (R27). -/
  frLen : BitVec 16
  /-- `FR_BASE` (R27). -/
  frBase : BitVec 21
  /-- `FR_SUM` (R27). -/
  frSum : Byte
  /-- `FR_CEND` (R27). -/
  frCend : BitVec 16
  /-- `DF_MBUF`: the bytes written since reset (R28). -/
  dfMbuf : Memory
  /-- `RAM`: the bytes written since power-up (R31, 20_memory R50, R51). -/
  ram : Memory
  /-- What the host has still to drive, one entry a step, the next first. The model's own field: the
  host's sequence of commands is the program (10_state R20; log entry 1). -/
  inputs : List HostInput
  /-- `rsp_valid` (00_scope R10, 10_state R32; log entry 2). -/
  rspValid : Bool
  /-- `rsp_res` (00_scope R10, 10_state R32; log entry 2). -/
  rspRes : Word
  /-- `rsp_err` (00_scope R10, 10_state R32; log entry 2). -/
  rspErr : ErrorCode
  deriving DecidableEq, Repr

/-- The model's own stops. The block has no trap (60_exceptions R262): every error the spec names is a
next state. Both reasons need a state that 10_state R34 excludes (log entry 8). -/
inductive Fault where
  /-- FRPOP in phase DATA with FR_POS at or above RAM_SIZE: the byte it would emit does not exist
  (20_memory R50). Raised by FRPOP only. Safe: the model stops where the spec says nothing, and no
  state reached from reset raises it. -/
  | noSuchRamByte (offset : Nat)
  /-- DFPUSH with DF_MLEN at or above MSG_MAX: the DF_MBUF byte it would write does not exist
  (10_state R28). Raised by DFPUSH only. Safe, for the same reason. -/
  | noSuchBufferByte (index : Nat)
  deriving DecidableEq, Repr

/-- Refusals. Every command has its meaning, so nothing raises one. -/
inductive Refusal where
  /-- A command with no meaning yet, by its mnemonic. Raised by no arm of `exec`. Safe. -/
  | notModelled (mnemonic : String)
  deriving DecidableEq, Repr

/-- The state right after reset at power-up (10_state R22, 70_reset R300). RAM and DF_MBUF list
nothing: their bytes are the free values of Config (log entries 3 and 4). The host has nothing to
drive and no response stands on the port (log entries 1 and 2). -/
def State.reset : State where
  ctrlStrict := false
  abase := 0
  ckacc := 0
  dfPcnt := 0
  dfRcnt := 0
  dfMlen := 0
  dfErr := .ok
  pOvf := false
  rOvf := false
  ckWarn := false
  frPhase := .idle
  frPos := 0
  frLen := 0
  frBase := 0
  frSum := 0
  frCend := 0
  dfMbuf := []
  ram := []
  inputs := []
  rspValid := false
  rspRes := 0
  rspErr := .ok

end Sys2Proof.Machine
end

