-- ==== Sys2Proof/Machine/Ops.lean ====
section
/-! DEFINITION. The shared operations: memories, the RAM, the message buffer, ending a command with a
response or an error (00_scope R14), the framer's and the deframer's steps that several commands or
phases share. The block has no trap: `raise` is its whole error entry, and nothing returns from an
error (60_exceptions R262, R264). -/

namespace Sys2Proof.Machine

/-! ## Memories -/

/-- The byte written at an address, if one was (log entry 3). -/
def Memory.lookup : Memory → Nat → Option Byte
  | [], _ => none
  | (a, b) :: rest, k => if k = a then some b else Memory.lookup rest k

/-- Write one byte, keeping the addresses strictly rising. -/
def Memory.store : Memory → Nat → Byte → Memory
  | [], k, v => [(k, v)]
  | (a, b) :: rest, k, v =>
    if k < a then (k, v) :: (a, b) :: rest
    else if k = a then (k, v) :: rest
    else (a, b) :: Memory.store rest k v

/-- The canonical form from an address on: strictly rising. -/
def Memory.wfFrom : Nat → Memory → Bool
  | _, [] => true
  | lo, (a, _) :: rest => lo ≤ a && Memory.wfFrom (a + 1) rest

/-- The canonical form: the addresses strictly rise. An unlisted address holds no written byte, so no
entry repeats one (log entry 3). -/
def Memory.wf (m : Memory) : Bool := Memory.wfFrom 0 m

/-- Every listed address is below a size. -/
def Memory.below (size : Nat) (m : Memory) : Bool := m.all fun c => c.1 < size

/-! ## RAM and message buffer -/

/-- `MemRead(a, 1)` (00_scope R14): the byte last written, else the byte's RAM_INIT value
(41_memory_access R110). -/
def State.ramRead (s : State) (a : Nat) : Byte := (Memory.lookup s.ram a).getD (Config.ramInit a)

/-- `MemWrite(a, 1, v)` (00_scope R14). -/
def State.ramWrite (s : State) (a : Nat) (v : Byte) : State := { s with ram := Memory.store s.ram a v }

/-- `DF_MBUF[i]` (00_scope R14). -/
def State.mbufRead (s : State) (i : Nat) : Byte := (Memory.lookup s.dfMbuf i).getD (Config.mbufInit i)

/-- `DF_MBUF[i] <- v` (00_scope R14). -/
def State.mbufWrite (s : State) (i : Nat) (v : Byte) : State :=
  { s with dfMbuf := Memory.store s.dfMbuf i v }

/-- `DF_MBUF[lo .. lo + n - 1]`. -/
def State.mbufSlice (s : State) (lo n : Nat) : List Byte := (List.range' lo n).map s.mbufRead

/-! ## Ending a command -/

/-- `respond(res, err)`: the command ends with this result word and error code (00_scope R14). -/
def State.respond (s : State) (res : Word) (err : ErrorCode) : State :=
  { s with rspValid := true, rspRes := res, rspErr := err }

/-- `raise E`: the command ends with result 0 and error E (00_scope R14, R12; 60_exceptions R262). -/
def State.raise (s : State) (err : ErrorCode) : State := s.respond 0#32 err

/-- `rst` asserted: every register at its reset value, RAM kept, DF_MBUF unspecified, no response on
the port (70_reset R300; log entries 2 and 4). What the host has still to drive is the host's. -/
def State.applyReset (s : State) : State := { State.reset with ram := s.ram, inputs := s.inputs }

/-! ## Framer -/

/-- The address of the current chunk, `(FR_BASE + FR_POS) mod 2^21` (45_framer R191). -/
def State.frAddress (s : State) : BitVec 21 := s.frBase + s.frPos.setWidth 21

/-- `respond(0x00000100 | zext_32(out), OK)`: a byte is given (45_framer R191). -/
def State.emit (s : State) (out : Byte) : State := s.respond (0x100#32 ||| out.setWidth 32) .ok

/-- Emit a byte that the message's checksum covers: `FR_SUM <- (FR_SUM + out) mod 256`
(45_framer R191, R193). -/
def State.emitSummed (s : State) (out : Byte) : State :=
  State.emit { s with frSum := s.frSum + out } out

/-- `min(FR_POS + 256, FR_LEN)` (45_framer R191). -/
def State.chunkEnd (s : State) : BitVec 16 :=
  BitVec.ofNat 16 (min (s.frPos.toNat + Config.chunkMax) s.frLen.toNat)

/-- `len + 10*ceil(len/256)`: the bytes a framing gives (45_framer R190, R194). -/
def framingLength (len : Nat) : Nat := len + 10 * ((len + 255) / 256)

/-! ## Deframer -/

/-- Append one content byte to a region, or drop it and set the region's overflow flag
(46_deframer R228). -/
def State.appendByte (s : State) (rev : Bool) (c : Byte) : State :=
  if rev then
    if s.dfRcnt.toNat < Config.rSize then
      State.ramWrite { s with dfRcnt := s.dfRcnt + 1 } (Config.rBase + s.dfRcnt.toNat) c
    else { s with rOvf := true }
  else
    if s.dfPcnt.toNat < Config.pSize then
      State.ramWrite { s with dfPcnt := s.dfPcnt + 1 } (Config.pBase + s.dfPcnt.toNat) c
    else { s with pOvf := true }

/-- `Append(content, rev)`: in order (46_deframer R228). -/
def State.append (s : State) (rev : Bool) : List Byte → State
  | [] => s
  | c :: cs => (s.appendByte rev c).append rev cs

/-- End a command with a deframer error that stays in DF_ERR (46_deframer R221, R229). -/
def State.dfFail (s : State) (err : ErrorCode) : State := State.raise { s with dfErr := err } err

/-- The result word of a completed message, `(n << 16) | (rev << 1) | 1` (46_deframer R231). -/
def messageResult (n : Nat) (rev : Bool) : Word :=
  (BitVec.ofNat 32 n <<< 16) ||| ((BitVec.ofBool rev).setWidth 32 <<< 1) ||| 1#32

/-- Accept a message of `n` content bytes: append it and answer its result word
(46_deframer R221, R228, R231). -/
def State.acceptMessage (s : State) (n : Nat) : State :=
  let rev := isReverb (s.mbufRead 5) (s.mbufRead 6)
  (s.append rev (s.mbufSlice 8 n)).respond (messageResult n rev) .ok

/-- The checks and the append of a message of `len` bytes that stands in DF_MBUF, in the order of the
rule: length, header, checksum (46_deframer R221; 60_exceptions R263). -/
def State.completeMessage (s : State) (len : Nat) : State :=
  if len < Config.msgMin then s.dfFail .frameShort
  else if s.mbufSlice 0 5 ≠ Config.header then s.dfFail .header
  else if checksum (sumBytes (s.mbufSlice 5 (len - 7))) ≠ s.mbufRead (len - 2) then
    if s.ctrlStrict then s.dfFail .cksum
    else State.acceptMessage { s with ckWarn := true } (len - 10)
  else s.acceptMessage (len - 10)

/-- DFEND's result word, `(DF_RCNT << 16) | DF_PCNT` (46_deframer R230). -/
def State.dfCounts (s : State) : Word := (s.dfRcnt.setWidth 32 <<< 16) ||| s.dfPcnt.setWidth 32

end Sys2Proof.Machine
end

