-- ==== Sys2Proof/Machine/Address.lean ====
section
/-! DEFINITION. The address triple commands AENC and ADEC (43_address). -/

namespace Sys2Proof.Machine

/-- AENC: the packed triple of `(ABASE + imm21) mod 2^21` (R152). -/
def execAenc (imm21 : BitVec 21) (s : State) : Host.Outcome State Fault Refusal :=
  .next (s.respond (packTriple (enc21 (s.abase + imm21))) .ok)

/-- ADEC: the address of a triple; ADDR_RANGE if a component is above 0x7F (R153). -/
def execAdec (h m l : Byte) (s : State) : Host.Outcome State Fault Refusal :=
  if tripleInRange h m l then .next (s.respond (decodeTriple h m l) .ok)
  else .next (s.raise .addrRange)

end Sys2Proof.Machine
end

