-- ==== Sys2Proof/Machine/Charset.lean ====
section
/-! DEFINITION. The character-set commands CTOA and CTOI (44_charset). -/

namespace Sys2Proof.Machine

/-- CTOA: the ASCII byte of a code; CHAR_RANGE from 64 up (R174). -/
def execCtoa (b : Byte) (s : State) : Host.Outcome State Fault Refusal :=
  match toAscii b with
  | some ch => .next (s.respond (ch.setWidth 32) .ok)
  | none => .next (s.raise .charRange)

/-- CTOI: the code of a character byte, 63 for any byte outside the table (R175). -/
def execCtoi (b : Byte) (s : State) : Host.Outcome State Fault Refusal :=
  .next (s.respond ((toCode b).setWidth 32) .ok)

end Sys2Proof.Machine
end

