-- ==== Sys2Proof/Machine/Checksum.lean ====
section
/-! DEFINITION. The checksum commands CKCLR, CKADD, CKGET and CKVFY (42_checksum). -/

namespace Sys2Proof.Machine

/-- CKCLR (R131). -/
def execCkclr (s : State) : Host.Outcome State Fault Refusal := .next (State.respond { s with ckacc := 0#8 } 0#32 .ok)

/-- CKADD: the sum modulo 256; the result is the new value (R132). -/
def execCkadd (b : Byte) (s : State) : Host.Outcome State Fault Refusal :=
  .next (State.respond { s with ckacc := s.ckacc + b } ((s.ckacc + b).setWidth 32) .ok)

/-- CKGET: the checksum of the accumulator (R133). -/
def execCkget (s : State) : Host.Outcome State Fault Refusal :=
  .next (s.respond ((checksum s.ckacc).setWidth 32) .ok)

/-- CKVFY: 1 if the byte is the checksum, compared on all 8 bits, else 0 (R134). -/
def execCkvfy (b : Byte) (s : State) : Host.Outcome State Fault Refusal :=
  if checksum s.ckacc = b then .next (s.respond 1#32 .ok) else .next (s.respond 0#32 .ok)

end Sys2Proof.Machine
end

