-- ==== Sys2Proof/Machine/Flags.lean ====
section
/-! DEFINITION. The numbers of the error codes (60_exceptions R260) and the status word DF_STAT
(10_state R30). The block has no condition codes (10_state R33). -/

namespace Sys2Proof.Machine

/-- The 4-bit code carried on `rsp_err` and held in DF_ERR (60_exceptions R260). -/
def ErrorCode.code : ErrorCode → BitVec 4
  | .ok => 0
  | .header => 1
  | .size => 2
  | .charRange => 3
  | .cksum => 4
  | .frameShort => 5
  | .frameLong => 6
  | .trunc => 7
  | .addrRange => 8
  | .lenRange => 9
  | .memRange => 10
  | .illegal => 11

/-- The codes DF_ERR may hold: none, or one of the deframer's six (10_state R30, R34). -/
def ErrorCode.deframer : ErrorCode → Bool
  | .ok | .header | .size | .cksum | .frameShort | .frameLong | .trunc => true
  | .charRange | .addrRange | .lenRange | .memRange | .illegal => false

/-- One bit as a vector. -/
def flagBit (b : Bool) : BitVec 1 := BitVec.ofBool b

/-- `{CK_WARN, R_OVF, P_OVF, DF_ERR}`, the 7 bits of DF_STAT (10_state R30). -/
def State.dfStat (s : State) : BitVec 7 :=
  (flagBit s.ckWarn ++ flagBit s.rOvf ++ flagBit s.pOvf ++ s.dfErr.code : BitVec (1 + 1 + 1 + 4))

/-- `rsp_err` as the port carries it (00_scope R10). -/
def State.rspErrPort (s : State) : BitVec 4 := s.rspErr.code

end Sys2Proof.Machine
end

