-- ==== Sys2Proof/Machine/Operands.lean ====
section
/-! DEFINITION. The register operands: the number of a framer phase (10_state R26) and what each RREG
selector reads (40_control R103). The immediate operands are the fields of the command word
(30_encoding R71, R72), read in Decode.lean. -/

namespace Sys2Proof.Machine

/-- The 4-bit value of FR_PHASE (10_state R26). -/
def FramerPhase.code : FramerPhase → BitVec 4
  | .idle => 0
  | .h0 => 1
  | .h1 => 2
  | .h2 => 3
  | .h3 => 4
  | .h4 => 5
  | .ah => 6
  | .am => 7
  | .al => 8
  | .data => 9
  | .ck => 10
  | .eox => 11

/-- The register a selector reads, zero-extended to 32 bits; `none` above 0x0C (40_control R103). -/
def State.readRegister (s : State) (sel : Byte) : Option Word :=
  match sel with
  | 0x00#8 => some ((BitVec.ofBool s.ctrlStrict).setWidth 32)
  | 0x01#8 => some (s.abase.setWidth 32)
  | 0x02#8 => some (s.ckacc.setWidth 32)
  | 0x03#8 => some (s.dfPcnt.setWidth 32)
  | 0x04#8 => some (s.dfRcnt.setWidth 32)
  | 0x05#8 => some (s.dfMlen.setWidth 32)
  | 0x06#8 => some (s.dfStat.setWidth 32)
  | 0x07#8 => some (s.frPhase.code.setWidth 32)
  | 0x08#8 => some (s.frPos.setWidth 32)
  | 0x09#8 => some (s.frLen.setWidth 32)
  | 0x0A#8 => some (s.frBase.setWidth 32)
  | 0x0B#8 => some (s.frSum.setWidth 32)
  | 0x0C#8 => some (s.frCend.setWidth 32)
  | _ => none

end Sys2Proof.Machine
end

