-- ==== Sys2Proof/Machine/Control.lean ====
section
/-! DEFINITION. The control and register-access commands NOP, WCTRL, WBASE and RREG (40_control). -/

namespace Sys2Proof.Machine

/-- NOP: answers (0, OK) and changes nothing (R100). -/
def execNop (s : State) : Host.Outcome State Fault Refusal := .next (s.respond 0#32 .ok)

/-- WCTRL: STRICT takes bit 0; an operand with one of bits 7:1 set is ILLEGAL (R101; log entry 10). -/
def execWctrl (b : Byte) (s : State) : Host.Outcome State Fault Refusal :=
  if wctrlOperandOk b then
    .next (State.respond { s with ctrlStrict := b.getLsbD 0 } 0#32 .ok)
  else .next (s.raise .illegal)

/-- WBASE: ABASE takes the operand (R102). -/
def execWbase (imm21 : BitVec 21) (s : State) : Host.Outcome State Fault Refusal :=
  .next (State.respond { s with abase := imm21 } 0#32 .ok)

/-- RREG: answers the register's value; a selector above 0x0C is ILLEGAL (R103; log entry 10). -/
def execRreg (sel : Byte) (s : State) : Host.Outcome State Fault Refusal :=
  match s.readRegister sel with
  | some v => .next (s.respond v .ok)
  | none => .next (s.raise .illegal)

end Sys2Proof.Machine
end

