-- ==== Sys2Proof/Machine/Deframer.lean ====
section
/-! DEFINITION. The deframer commands DFSTART, DFPUSH and DFEND (46_deframer). -/

namespace Sys2Proof.Machine

/-- DFSTART: clears the counts, the error and the flags; RAM and DF_MBUF stay (R220). -/
def execDfstart (s : State) : Host.Outcome State Fault Refusal :=
  .next (State.respond
    { s with
      dfMlen := 0
      dfPcnt := 0
      dfRcnt := 0
      dfErr := .ok
      pOvf := false
      rOvf := false
      ckWarn := false }
    0#32 .ok)

/-- DFPUSH: the sticky error answers first (R229); a byte other than 0xF7 joins the message, the 266th
being FRAME_LONG (R224); 0xF7 completes it (R221). A buffer index past DF_MBUF, which no reached state
has, is the model's stop (log entry 8). -/
def execDfpush (b : Byte) (s : State) : Host.Outcome State Fault Refusal :=
  if s.dfErr ≠ .ok then .next (s.raise s.dfErr)
  else if b ≠ Config.eox ∧ s.dfMlen.toNat = Config.msgMax - 1 then .next (s.dfFail .frameLong)
  else if Config.msgMax ≤ s.dfMlen.toNat then .fault (.noSuchBufferByte s.dfMlen.toNat)
  else if b ≠ Config.eox then
    .next (State.respond (State.mbufWrite { s with dfMlen := s.dfMlen + 1 } s.dfMlen.toNat b) 0#32 .ok)
  else
    .next (State.completeMessage (State.mbufWrite { s with dfMlen := 0 } s.dfMlen.toNat b)
      (s.dfMlen.toNat + 1))

/-- DFEND: answers both counts, with the sticky error, TRUNC, SIZE or OK, in that order (R230). -/
def execDfend (s : State) : Host.Outcome State Fault Refusal :=
  if s.dfErr ≠ .ok then .next (s.respond s.dfCounts s.dfErr)
  else if s.dfMlen ≠ 0 then .next (State.respond { s with dfErr := .trunc } s.dfCounts .trunc)
  else if s.pOvf ∨ s.rOvf ∨ s.dfPcnt.toNat ≠ Config.pSize ∨ s.dfRcnt.toNat ≠ Config.rSize then
    .next (State.respond { s with dfErr := .size } s.dfCounts .size)
  else .next (s.respond s.dfCounts .ok)

end Sys2Proof.Machine
end

