-- ==== Sys2Proof/Machine/Framer.lean ====
section
/-! DEFINITION. The framer commands FRSTART and FRPOP (45_framer). -/

namespace Sys2Proof.Machine

/-- FRSTART: latches the base and the length and answers how many bytes the framing gives; LEN_RANGE
past the RAM (R190). -/
def execFrstart (len : BitVec 24) (s : State) : Host.Outcome State Fault Refusal :=
  if Config.ramSize < len.toNat then .next (s.raise .lenRange)
  else
    .next (State.respond
      { s with
        frBase := s.abase
        frLen := len.setWidth 16
        frPos := 0
        frSum := 0
        frCend := 0
        frPhase := if len = 0#24 then .idle else .h0 }
      (BitVec.ofNat 32 (framingLength len.toNat)) .ok)

/-- FRPOP: one byte of the stream, chosen by the phase (R191). In phase DATA an offset past the RAM,
which no reached state has, is the model's stop (log entry 8). -/
def execFrpop (s : State) : Host.Outcome State Fault Refusal :=
  match s.frPhase with
  | .idle => .next (s.respond 0#32 .ok)
  | .h0 => .next (State.emit { s with frSum := 0, frPhase := .h1 } 0xF0#8)
  | .h1 => .next (State.emit { s with frPhase := .h2 } 0x41#8)
  | .h2 => .next (State.emit { s with frPhase := .h3 } 0x00#8)
  | .h3 => .next (State.emit { s with frPhase := .h4 } 0x14#8)
  | .h4 => .next (State.emit { s with frPhase := .ah } 0x12#8)
  | .ah => .next (State.emitSummed { s with frPhase := .am } (enc21 s.frAddress).h)
  | .am => .next (State.emitSummed { s with frPhase := .al } (enc21 s.frAddress).m)
  | .al =>
    .next (State.emitSummed { s with frPhase := .data, frCend := s.chunkEnd } (enc21 s.frAddress).l)
  | .data =>
    if s.frPos.toNat < Config.ramSize then
      .next (State.emitSummed
        { s with
          frPos := s.frPos + 1
          frPhase := if s.frPos + 1 = s.frCend then .ck else .data }
        (s.ramRead s.frPos.toNat))
    else .fault (.noSuchRamByte s.frPos.toNat)
  | .ck => .next (State.emit { s with frPhase := .eox } (checksum s.frSum))
  | .eox =>
    .next (State.emit { s with frPhase := if s.frPos = s.frLen then .idle else .h0 } Config.eox)

end Sys2Proof.Machine
end

