-- ==== Sys2Proof/Machine/Ram.lean ====
section
/-! DEFINITION. The RAM access commands MEMRD and MEMWR (41_memory_access). -/

namespace Sys2Proof.Machine

/-- MEMRD: the byte at the offset; MEM_RANGE past the RAM (R110). -/
def execMemrd (addr : BitVec 16) (s : State) : Host.Outcome State Fault Refusal :=
  if Config.ramSize ≤ addr.toNat then .next (s.raise .memRange)
  else .next (s.respond ((s.ramRead addr.toNat).setWidth 32) .ok)

/-- MEMWR: writes the byte; MEM_RANGE past the RAM (R111). -/
def execMemwr (addr : BitVec 16) (d : Byte) (s : State) : Host.Outcome State Fault Refusal :=
  if Config.ramSize ≤ addr.toNat then .next (s.raise .memRange)
  else .next ((s.ramWrite addr.toNat d).respond 0#32 .ok)

end Sys2Proof.Machine
end

