-- ==== Sys2Proof/Machine/Dispatch.lean ====
section
/-! DEFINITION. Exec_op of 00_scope R11: one arm per command, one call of its meaning. -/

namespace Sys2Proof.Machine

def exec (i : Instr) (s : State) : Host.Outcome State Fault Refusal :=
  match i with
  | .nop => Sys2Proof.Machine.execNop s
  | .wctrl b => Sys2Proof.Machine.execWctrl b s
  | .wbase imm21 => Sys2Proof.Machine.execWbase imm21 s
  | .rreg sel => Sys2Proof.Machine.execRreg sel s
  | .memwr addr d => Sys2Proof.Machine.execMemwr addr d s
  | .memrd addr => Sys2Proof.Machine.execMemrd addr s
  | .ckclr => Sys2Proof.Machine.execCkclr s
  | .ckadd b => Sys2Proof.Machine.execCkadd b s
  | .ckget => Sys2Proof.Machine.execCkget s
  | .ckvfy b => Sys2Proof.Machine.execCkvfy b s
  | .aenc imm21 => Sys2Proof.Machine.execAenc imm21 s
  | .adec h m l => Sys2Proof.Machine.execAdec h m l s
  | .ctoa b => Sys2Proof.Machine.execCtoa b s
  | .ctoi b => Sys2Proof.Machine.execCtoi b s
  | .frstart len => Sys2Proof.Machine.execFrstart len s
  | .frpop => Sys2Proof.Machine.execFrpop s
  | .dfstart => Sys2Proof.Machine.execDfstart s
  | .dfpush b => Sys2Proof.Machine.execDfpush b s
  | .dfend => Sys2Proof.Machine.execDfend s

end Sys2Proof.Machine
end

