-- ==== Sys2Proof/Machine/Port.lean ====
section
/-! DEFINITION. The command port at transaction level: what the block does with what the host drives
(00_scope R10, R11; 70_reset R300). The block fetches nothing (10_state R20). -/

namespace Sys2Proof.Machine

/-- `cmd_valid` with this word on `cmd`, `rst` low. -/
def HostInput.command (w : Word) : HostInput := { rst := false, cmdValid := true, cmd := w }

/-- `rst` asserted. -/
def HostInput.reset : HostInput := { rst := true, cmdValid := false, cmd := 0#32 }

/-- The block accepts the command presented: `cmd_valid` with `rst` low (00_scope R10, 70_reset R300). -/
def HostInput.accepted (x : HostInput) : Bool := !x.rst && x.cmdValid

/-- `cmd_ready` for what the host drives next: high but while `rst` is asserted (00_scope R10,
70_reset R300). -/
def State.cmdReady (s : State) : Bool :=
  match s.inputs with
  | [] => true
  | x :: _ => !x.rst

/-- Step(S, w) of 00_scope R11: an illegal word answers (0, ILLEGAL) and changes nothing. -/
def runCommand (w : Word) (s : State) : Host.Outcome State Fault Refusal :=
  match decode w with
  | .ok i => exec i s
  | .error _ => .next (s.raise .illegal)

/-- One step of the block under what the host drives. With `rst` asserted no command is accepted
(70_reset R300); with no command presented the block executes nothing (70_reset R301; log entry 6). -/
def runInput (x : HostInput) (s : State) : Host.Outcome State Fault Refusal :=
  if x.rst then .next s.applyReset
  else if x.cmdValid then runCommand x.cmd s
  else .next s

/-- Take the host's next entry and run it. With nothing left to drive the block stays as it is
(70_reset R301; log entry 6). -/
def runNext (s : State) : Host.Outcome State Fault Refusal :=
  match s.inputs with
  | [] => .next s
  | x :: rest => runInput x { s with inputs := rest }

/-- The host presents one more command before everything it has still to drive. -/
def State.present (s : State) (w : Word) : State :=
  { s with inputs := HostInput.command w :: s.inputs }

end Sys2Proof.Machine
end

