-- ==== Sys2Proof/Machine/Step.lean ====
section
/-! DEFINITION. One step of the machine: the host drives its next entry and the block answers. -/

namespace Sys2Proof.Machine

/-- One step (00_scope R10, R11). -/
def step (s : State) : Host.Outcome State Fault Refusal := runNext s

/-- The state in which the very next step runs the command whose bits are the low `nbits` bits of `w`:
the host presents that word next. The block has no program store and no program counter (10_state
R20), so this stands for the host issuing one command (log entry 5). -/
def State.withFetchWord (s : State) (nbits w : Nat) : State :=
  s.present (BitVec.ofNat 32 (w % 2 ^ nbits))

end Sys2Proof.Machine
end

