-- ==== Sys2Proof/Machine/Assembler.lean ====
section
/-! DEFINITION. The assembler's operand lists (30_encoding R77), the pseudo-instructions (R78) and the
conversion sequences (70_reset R303), each as a list of commands; a list of commands as what the host
drives, and as a run of `exec`. Lines as text are in AsmText.lean. -/

namespace Sys2Proof.Machine

/-- The register names RREG takes (30_encoding R77, 10_state R22). -/
inductive RegisterName where
  | CTRL | ABASE | CKACC | DF_PCNT | DF_RCNT | DF_MLEN | DF_STAT
  | FR_PHASE | FR_POS | FR_LEN | FR_BASE | FR_SUM | FR_CEND
  deriving DecidableEq, Repr

/-- The selector of a register name (10_state R22). -/
def RegisterName.selector : RegisterName → Nat
  | .CTRL => 0x00
  | .ABASE => 0x01
  | .CKACC => 0x02
  | .DF_PCNT => 0x03
  | .DF_RCNT => 0x04
  | .DF_MLEN => 0x05
  | .DF_STAT => 0x06
  | .FR_PHASE => 0x07
  | .FR_POS => 0x08
  | .FR_LEN => 0x09
  | .FR_BASE => 0x0A
  | .FR_SUM => 0x0B
  | .FR_CEND => 0x0C

/-- An operand of an assembler line: a number, a quoted character by its ASCII byte, or a register
name (30_encoding R77). -/
inductive AsmOperand where
  | number (n : Nat)
  | character (ch : Byte)
  | register (r : RegisterName)
  deriving DecidableEq, Repr

/-- The number an operand stands for, a quoted character its ASCII byte. A register name is no number
(30_encoding R77). -/
def AsmOperand.value : AsmOperand → Option Nat
  | .number n => some n
  | .character ch => some ch.toNat
  | .register _ => none

/-- An operand in a field of `n` bits; refused where it does not fit, never truncated (30_encoding
R77). -/
def AsmOperand.field (n : Nat) (x : AsmOperand) : Option (BitVec n) :=
  x.value.bind fun v => if v < 2 ^ n then some (BitVec.ofNat n v) else none

/-- RREG's operand: a selector or a register name (30_encoding R77). -/
def AsmOperand.selectorField : AsmOperand → Option Byte
  | .register r => some (BitVec.ofNat 8 r.selector)
  | x => x.field 8

/-- The command of an assembler line (30_encoding R77). -/
def assemble : Mnemonic → List AsmOperand → Option Instr
  | .NOP, [] => some .nop
  | .WCTRL, [b] => (b.field 8).map .wctrl
  | .WBASE, [imm] => (imm.field 21).map .wbase
  | .RREG, [sel] => sel.selectorField.map .rreg
  | .MEMWR, [addr, d] => (addr.field 16).bind fun a => (d.field 8).map (.memwr a)
  | .MEMRD, [addr] => (addr.field 16).map .memrd
  | .CKCLR, [] => some .ckclr
  | .CKADD, [b] => (b.field 8).map .ckadd
  | .CKGET, [] => some .ckget
  | .CKVFY, [b] => (b.field 8).map .ckvfy
  | .AENC, [imm] => (imm.field 21).map .aenc
  | .ADEC, [h, m, l] =>
    (h.field 8).bind fun x => (m.field 8).bind fun y => (l.field 8).map (.adec x y)
  | .CTOA, [b] => (b.field 8).map .ctoa
  | .CTOI, [b] => (b.field 8).map .ctoi
  | .FRSTART, [len] => (len.field 24).map .frstart
  | .FRPOP, [] => some .frpop
  | .DFSTART, [] => some .dfstart
  | .DFPUSH, [b] => (b.field 8).map .dfpush
  | .DFEND, [] => some .dfend
  | _, _ => none

/-- The operand numbers of a command, in the order of its assembler line (30_encoding R77). -/
def operandsOf : Instr → List Nat
  | .nop => []
  | .wctrl b => [b.toNat]
  | .wbase imm21 => [imm21.toNat]
  | .rreg sel => [sel.toNat]
  | .memwr addr d => [addr.toNat, d.toNat]
  | .memrd addr => [addr.toNat]
  | .ckclr => []
  | .ckadd b => [b.toNat]
  | .ckget => []
  | .ckvfy b => [b.toNat]
  | .aenc imm21 => [imm21.toNat]
  | .adec h m l => [h.toNat, m.toNat, l.toNat]
  | .ctoa b => [b.toNat]
  | .ctoi b => [b.toNat]
  | .frstart len => [len.toNat]
  | .frpop => []
  | .dfstart => []
  | .dfpush b => [b.toNat]
  | .dfend => []

/-! ## Pseudo-instructions (30_encoding R78) -/

/-- `CKSEQ b0, …`: its final response is the checksum of the bytes. -/
def ckseq (bs : List Byte) : List Instr := [.ckclr] ++ bs.map .ckadd ++ [.ckget]

/-- `MEMFILL addr, d0, …`; refused where an offset does not fit MEMWR's field. -/
def memfill (addr : Nat) : List Byte → Option (List Instr)
  | [] => some []
  | d :: ds =>
    ((AsmOperand.number addr).field 16).bind fun a =>
      (memfill (addr + 1) ds).map fun rest => .memwr a d :: rest

/-- `DFSEND b0, …`. -/
def dfsend (bs : List Byte) : List Instr := bs.map .dfpush

/-- `FRDRAIN n`. -/
def frdrain (n : Nat) : List Instr := List.replicate n .frpop

/-- `SETSTRICT`. -/
def setstrict : List Instr := [.wctrl 1]

/-- `CLRSTRICT`. -/
def clrstrict : List Instr := [.wctrl 0]

/-! ## Conversion sequences (70_reset R303) -/

/-- A framing of an image: base 0x8000, the image in RAM, FRSTART, and every byte popped. -/
def framingSequence (img : List Byte) : Option (List Instr) :=
  (memfill 0 img).bind fun fill =>
    ((AsmOperand.number img.length).field 24).map fun len =>
      [.wbase Config.bankBase] ++ fill ++ [.frstart len] ++ frdrain (framingLength img.length)

/-- A deframing of a stream: the checksum mode, DFSTART, one DFPUSH per byte, DFEND. -/
def deframingSequence (strict : Bool) (stream : List Byte) : List Instr :=
  (if strict then setstrict else clrstrict) ++ [.dfstart] ++ dfsend stream ++ [.dfend]

/-! ## Running commands -/

/-- A list of commands as what the host drives (10_state R20). -/
def hostProgram (is : List Instr) : List HostInput := is.map fun i => .command (encode i)

/-- The state after a list of commands, in order (20_memory R58); `none` if one stops. -/
def runInstrs : List Instr → State → Option State
  | [], s => some s
  | i :: is, s =>
    match exec i s with
    | .next t => runInstrs is t
    | .fault _ => none
    | .refused _ => none

end Sys2Proof.Machine
end

