-- ==== Sys2Proof/Machine/AsmText.lean ====
section
/-! DEFINITION. The text of an assembler line (30_encoding R77, R78): one command or pseudo-instruction
a line, its operands separated by commas. What the rules leave open about spaces and letter case is
log entry 14. -/

namespace Sys2Proof.Machine

/-- What a line is cut into: a comma, a quoted character, or an unbroken run of other characters. -/
inductive AsmToken where
  | comma
  | quoted (ch : Char)
  | run (cs : List Char)
  deriving DecidableEq, Repr

/-- The run gathered so far, in reverse, as a token; none if it is empty. -/
def flushRun (acc : List Char) : List AsmToken :=
  if acc = [] then [] else [.run acc.reverse]

/-- The tokens of a line; a lone or unclosed quote is refused. -/
def lineTokens : List Char → List Char → Option (List AsmToken)
  | [], acc => some (flushRun acc)
  | '\'' :: ch :: '\'' :: rest, acc =>
    (lineTokens rest []).map fun ts => flushRun acc ++ .quoted ch :: ts
  | '\'' :: _, _ => none
  | ',' :: rest, acc => (lineTokens rest []).map fun ts => flushRun acc ++ .comma :: ts
  | ' ' :: rest, acc => (lineTokens rest []).map fun ts => flushRun acc ++ ts
  | ch :: rest, acc => lineTokens rest (ch :: acc)

/-- The value of one digit below a base. -/
def digitValue (base : Nat) (ch : Char) : Option Nat :=
  let n := ch.toNat
  let v :=
    if 0x30 ≤ n ∧ n ≤ 0x39 then n - 0x30
    else if 0x41 ≤ n ∧ n ≤ 0x46 then n - 0x41 + 10
    else if 0x61 ≤ n ∧ n ≤ 0x66 then n - 0x61 + 10
    else base
  if v < base then some v else none

/-- The number a list of digits writes, after a prefix of value `acc`. -/
def digitsValue (base : Nat) : List Char → Nat → Option Nat
  | [], acc => some acc
  | ch :: rest, acc => (digitValue base ch).bind fun v => digitsValue base rest (acc * base + v)

/-- A number: `0x` and hexadecimal digits, or decimal digits (30_encoding R77). -/
def parseNumber : List Char → Option Nat
  | '0' :: 'x' :: d :: ds => digitsValue 16 (d :: ds) 0
  | [] => none
  | cs => digitsValue 10 cs 0

/-- The spelling of a register name (30_encoding R77). -/
def RegisterName.text : RegisterName → List Char
  | .CTRL => "CTRL".toList
  | .ABASE => "ABASE".toList
  | .CKACC => "CKACC".toList
  | .DF_PCNT => "DF_PCNT".toList
  | .DF_RCNT => "DF_RCNT".toList
  | .DF_MLEN => "DF_MLEN".toList
  | .DF_STAT => "DF_STAT".toList
  | .FR_PHASE => "FR_PHASE".toList
  | .FR_POS => "FR_POS".toList
  | .FR_LEN => "FR_LEN".toList
  | .FR_BASE => "FR_BASE".toList
  | .FR_SUM => "FR_SUM".toList
  | .FR_CEND => "FR_CEND".toList

/-- The register names, in the order of their selectors (10_state R22). -/
def registerNames : List RegisterName :=
  [.CTRL, .ABASE, .CKACC, .DF_PCNT, .DF_RCNT, .DF_MLEN, .DF_STAT,
   .FR_PHASE, .FR_POS, .FR_LEN, .FR_BASE, .FR_SUM, .FR_CEND]

/-- The spelling of a mnemonic (30_encoding R73). -/
def mnemonicText : Mnemonic → List Char
  | .NOP => "NOP".toList
  | .WCTRL => "WCTRL".toList
  | .WBASE => "WBASE".toList
  | .RREG => "RREG".toList
  | .MEMWR => "MEMWR".toList
  | .MEMRD => "MEMRD".toList
  | .CKCLR => "CKCLR".toList
  | .CKADD => "CKADD".toList
  | .CKGET => "CKGET".toList
  | .CKVFY => "CKVFY".toList
  | .AENC => "AENC".toList
  | .ADEC => "ADEC".toList
  | .CTOA => "CTOA".toList
  | .CTOI => "CTOI".toList
  | .FRSTART => "FRSTART".toList
  | .FRPOP => "FRPOP".toList
  | .DFSTART => "DFSTART".toList
  | .DFPUSH => "DFPUSH".toList
  | .DFEND => "DFEND".toList

/-- The mnemonics, in the order of 30_encoding R73. -/
def mnemonics : List Mnemonic :=
  [.NOP, .WCTRL, .WBASE, .RREG, .MEMWR, .MEMRD, .CKCLR, .CKADD, .CKGET, .CKVFY,
   .AENC, .ADEC, .CTOA, .CTOI, .FRSTART, .FRPOP, .DFSTART, .DFPUSH, .DFEND]

/-- The pseudo-instructions (30_encoding R78). -/
inductive Pseudo where
  | CKSEQ | MEMFILL | DFSEND | FRDRAIN | SETSTRICT | CLRSTRICT
  deriving DecidableEq, Repr

/-- The spelling of a pseudo-instruction (30_encoding R78). -/
def Pseudo.text : Pseudo → List Char
  | .CKSEQ => "CKSEQ".toList
  | .MEMFILL => "MEMFILL".toList
  | .DFSEND => "DFSEND".toList
  | .FRDRAIN => "FRDRAIN".toList
  | .SETSTRICT => "SETSTRICT".toList
  | .CLRSTRICT => "CLRSTRICT".toList

/-- The pseudo-instructions, in the order of 30_encoding R78. -/
def pseudos : List Pseudo := [.CKSEQ, .MEMFILL, .DFSEND, .FRDRAIN, .SETSTRICT, .CLRSTRICT]

/-- The operand a token stands for; a quoted character must be ASCII (30_encoding R77). -/
def AsmToken.operand : AsmToken → Option AsmOperand
  | .comma => none
  | .quoted ch => if ch.toNat < 128 then some (.character (BitVec.ofNat 8 ch.toNat)) else none
  | .run cs =>
    match registerNames.find? fun r => r.text = cs with
    | some r => some (.register r)
    | none => (parseNumber cs).map .number

/-- The operands of a line, one comma between two (30_encoding R77). -/
def operandList : List AsmToken → Option (List AsmOperand)
  | [] => some []
  | [t] => t.operand.map fun x => [x]
  | t :: .comma :: u :: rest =>
    t.operand.bind fun x => (operandList (u :: rest)).map fun xs => x :: xs
  | _ => none

/-- Every operand in a byte field (30_encoding R77). -/
def byteOperands : List AsmOperand → Option (List Byte)
  | [] => some []
  | x :: xs => (x.field 8).bind fun b => (byteOperands xs).map fun bs => b :: bs

/-- The commands a pseudo-instruction expands to (30_encoding R78). DESIGN CHOICE, log entry 14:
FRDRAIN's count goes into no field, so no width bounds it, and like every other number it may be a
quoted character; CKSEQ, DFSEND and MEMFILL may have no data byte, and MEMFILL with an address alone
is no command at all. -/
def expandPseudo : Pseudo → List AsmOperand → Option (List Instr)
  | .CKSEQ, xs => (byteOperands xs).map ckseq
  | .MEMFILL, addr :: xs =>
    (addr.field 16).bind fun a => (byteOperands xs).bind fun bs => memfill a.toNat bs
  | .DFSEND, xs => (byteOperands xs).map dfsend
  | .FRDRAIN, [n] => n.value.map frdrain
  | .SETSTRICT, [] => some setstrict
  | .CLRSTRICT, [] => some clrstrict
  | _, _ => none

/-- The commands of one line of text (30_encoding R77, R78). -/
def assembleLine (line : List Char) : Option (List Instr) :=
  match lineTokens line [] with
  | some (.run name :: ts) =>
    (operandList ts).bind fun xs =>
      match mnemonics.find? fun m => mnemonicText m = name with
      | some m => (assemble m xs).map fun i => [i]
      | none =>
        (pseudos.find? fun p => p.text = name).bind fun p => expandPseudo p xs
  | _ => none

end Sys2Proof.Machine
end

