-- ==== Sys2Proof/Machine/Stream.lean ====
section
/-! DEFINITION. The byte stream of a framing as 45_framer R192 writes it, apart from the engine, and the
bytes a run of FRPOPs gives. -/

namespace Sys2Proof.Machine

/-- The summed part of a message: the address triple of `B + s` and the content `img[s .. e-1]`
(45_framer R192). -/
def frameBody (img : Nat → Byte) (B : BitVec 21) (s e : Nat) : List Byte :=
  let a := enc21 (B + BitVec.ofNat 21 s)
  [a.h, a.m, a.l] ++ (List.range' s (e - s)).map img

/-- One generated message (45_framer R192). -/
def frameMessage (img : Nat → Byte) (B : BitVec 21) (s e : Nat) : List Byte :=
  Config.header ++ frameBody img B s e
    ++ [checksum (sumBytes (frameBody img B s e)), Config.eox]

/-- `Frame(img, len, B)` (45_framer R192). -/
def frame (img : Nat → Byte) (len : Nat) (B : BitVec 21) : List Byte :=
  (List.range ((len + 255) / 256)).flatMap fun k =>
    frameMessage img B (256 * k) (min (256 * k + 256) len)

/-- The bytes `n` FRPOPs give and the state after them; `none` if one gives no byte (bit 8 of its
result clear, 45_framer R191) or stops. -/
def popBytes : Nat → State → Option (List Byte × State)
  | 0, s => some ([], s)
  | n + 1, s =>
    match exec .frpop s with
    | .next t =>
      if t.rspRes.getLsbD 8 then
        (popBytes n t).map fun p => (t.rspRes.setWidth 8 :: p.1, p.2)
      else none
    | .fault _ => none
    | .refused _ => none

end Sys2Proof.Machine
end

