-- ==== Sys2Proof/Safety.lean ====
section
/-! DEFINITION. What a safe state is: the invariants of 10_state R34, strengthened to what every step
keeps, with the canonical form of the memories. -/

namespace Sys2Proof.Machine

/-- What the framer's registers satisfy in each phase (10_state R34): a chunk begins at a multiple of
256 below FR_LEN and ends at `min(start + 256, FR_LEN)`. -/
def State.framerInv (s : State) : Prop :=
  match s.frPhase with
  | .idle => s.frPos = s.frLen
  | .h0 | .h1 | .h2 | .h3 | .h4 | .ah | .am | .al =>
    s.frPos.toNat < s.frLen.toNat ∧ s.frPos.toNat % 256 = 0
  | .data =>
    s.frPos.toNat < s.frCend.toNat
      ∧ s.frCend.toNat = min (s.frPos.toNat / 256 * 256 + 256) s.frLen.toNat
  | .ck | .eox =>
    0 < s.frPos.toNat ∧ (s.frPos = s.frLen ∨ s.frPos.toNat % 256 = 0)

/-- The invariant of the block (10_state R34, R28; 20_memory R50). -/
structure State.Inv (s : State) : Prop where
  pcnt_le : s.dfPcnt.toNat ≤ 0x7000
  rcnt_le : s.dfRcnt.toNat ≤ 0x1780
  mlen_le : s.dfMlen.toNat ≤ 265
  pos_le : s.frPos.toNat ≤ s.frLen.toNat
  len_le : s.frLen.toNat ≤ 0x8780
  framer : s.framerInv
  dfErr_code : s.dfErr.deframer = true
  pOvf_full : s.pOvf = true → s.dfPcnt.toNat = 0x7000
  rOvf_full : s.rOvf = true → s.dfRcnt.toNat = 0x1780
  ram_wf : Memory.wf s.ram = true
  ram_below : Memory.below 0x8780 s.ram = true
  mbuf_wf : Memory.wf s.dfMbuf = true
  mbuf_below : Memory.below 266 s.dfMbuf = true
  /-- The bytes of the message being received were written, and none is a terminator (10_state R28,
  46_deframer R222). -/
  mbuf_held : ∀ i, i < s.dfMlen.toNat → ∃ b, Memory.lookup s.dfMbuf i = some b ∧ b ≠ Config.eox

/-- A step that ends in a next state. -/
def completes (o : Host.Outcome State Fault Refusal) : Prop := ∃ t, o = .next t

end Sys2Proof.Machine
end

