-- ==== Sys2Proof/Certificates/Slice0/Obligations.lean ====
section
/-! DEFINITION. The statements for the provers. A next state is written out as the state before with
the fields the rule writes, so each such equation is at once the result, the frame and the completion
of the command. -/

open Sys2Proof Sys2Proof.Machine

/-! ## Shared vocabulary -/

namespace Sys2Proof.Machine

/-- The answer to an illegal word: (0, ILLEGAL), nothing else changed (30_encoding R76). -/
def illegalAnswer (s : State) : State :=
  { s with rspValid := true, rspRes := 0, rspErr := .illegal }

/-- The words of a format-Z opcode: bits 23:0 zero run the command, any other is illegal
(30_encoding R71, R76). -/
def wordsZ (op : Byte) (i : Instr) : Prop :=
  ∀ (w : Word) (s : State), w.extractLsb' 24 8 = op →
    runCommand w s = if w.extractLsb' 0 24 = 0 then exec i s else .next (illegalAnswer s)

/-- The words of a format-B opcode (30_encoding R71, R76). -/
def wordsB (op : Byte) (mk : Byte → Instr) : Prop :=
  ∀ (w : Word) (s : State), w.extractLsb' 24 8 = op →
    runCommand w s =
      if w.extractLsb' 8 16 = 0 then exec (mk (w.extractLsb' 0 8)) s else .next (illegalAnswer s)

/-- The words of a format-A opcode (30_encoding R71, R76). -/
def wordsA (op : Byte) (mk : BitVec 21 → Instr) : Prop :=
  ∀ (w : Word) (s : State), w.extractLsb' 24 8 = op →
    runCommand w s =
      if w.extractLsb' 21 3 = 0 then exec (mk (w.extractLsb' 0 21)) s else .next (illegalAnswer s)

/-- The words of a format-T opcode (30_encoding R71). -/
def wordsT (op : Byte) (mk : Byte → Byte → Byte → Instr) : Prop :=
  ∀ (w : Word) (s : State), w.extractLsb' 24 8 = op →
    runCommand w s =
      exec (mk (w.extractLsb' 16 8) (w.extractLsb' 8 8) (w.extractLsb' 0 8)) s

/-- The words of a format-M opcode (30_encoding R71). -/
def wordsM (op : Byte) (mk : BitVec 16 → Byte → Instr) : Prop :=
  ∀ (w : Word) (s : State), w.extractLsb' 24 8 = op →
    runCommand w s = exec (mk (w.extractLsb' 8 16) (w.extractLsb' 0 8)) s

/-- The words of a format-MR opcode (30_encoding R71, R76). -/
def wordsMR (op : Byte) (mk : BitVec 16 → Instr) : Prop :=
  ∀ (w : Word) (s : State), w.extractLsb' 24 8 = op →
    runCommand w s =
      if w.extractLsb' 0 8 = 0 then exec (mk (w.extractLsb' 8 16)) s else .next (illegalAnswer s)

/-- The words of a format-L opcode (30_encoding R71). -/
def wordsL (op : Byte) (mk : BitVec 24 → Instr) : Prop :=
  ∀ (w : Word) (s : State), w.extractLsb' 24 8 = op →
    runCommand w s = exec (mk (w.extractLsb' 0 24)) s

/-- The next FRPOP of `t` is in phase DATA, gives the byte `d`, sums it and moves to the next offset
(45_framer R191, R198). -/
def popsContent (t : State) (d : Byte) : Prop :=
  t.frPhase = .data
    ∧ ∃ u, exec .frpop t = .next u ∧ u.rspRes.toNat = 0x100 + d.toNat ∧ u.rspErr = .ok
        ∧ u.frSum = t.frSum + d ∧ u.frPos = t.frPos + 1

/-- The sum of a byte sequence as a number. -/
def natSum (bs : List Byte) : Nat := (bs.map BitVec.toNat).sum

/-- The message that a terminator pushed now completes: the bytes held, then 0xF7 (46_deframer R222). -/
def pendingMessage (s : State) : List Byte := s.mbufSlice 0 s.dfMlen.toNat ++ [0xF7]

/-- The header `M[0 .. 4]` of a message (46_deframer R223). -/
def headerOf (M : List Byte) : List Byte := M.take 5

/-- The address triple and the content, `M[5 .. L-3]` (46_deframer R227). -/
def bodyOf (M : List Byte) : List Byte := (M.drop 5).take (M.length - 7)

/-- The content `M[8 .. L-3]` (46_deframer R223). -/
def contentOf (M : List Byte) : List Byte := (M.drop 8).take (M.length - 10)

/-- The checksum byte is the checksum of the body, compared on all 8 bits (46_deframer R227). -/
def checksumMatches (M : List Byte) : Prop :=
  (M.getD (M.length - 2) 0).toNat = (128 - natSum (bodyOf M) % 128) % 128

/-- The region test on the raw high and mid address bytes (46_deframer R226). -/
def reverbMessage (M : List Byte) : Prop :=
  3 < (M.getD 5 0).toNat ∨ ((M.getD 5 0).toNat = 3 ∧ 0x60 ≤ (M.getD 6 0).toNat)

/-- `t` is `s` after a region that begins at RAM offset `base`, holds `size` bytes and has `count` of
them took `content` in order: the bytes that fit stand after the old ones, every other byte of RAM is
as before (46_deframer R228). -/
def ramAppended (s t : State) (base size count : Nat) (content : List Byte) : Prop :=
  (∀ j (h : j < content.length), count + j < size → t.ramRead (base + count + j) = content[j])
    ∧ ∀ a, ¬ (base + count ≤ a ∧ a < base + min (count + content.length) size) →
        t.ramRead a = s.ramRead a

/-- `t` is `s` after the content of an accepted message of `M` went to its region, with this result
word and CK_WARN; nothing else changed but the buffer's terminator and DF_MLEN (46_deframer R221,
R228, R231). -/
def acceptedInto (s t : State) (M : List Byte) (warn : Bool) : Prop :=
  let n := (contentOf M).length
  (reverbMessage M →
    t = { s with
          dfMlen := 0
          dfMbuf := Memory.store s.dfMbuf s.dfMlen.toNat 0xF7
          ram := t.ram
          dfRcnt := BitVec.ofNat 13 (min (s.dfRcnt.toNat + n) 0x1780)
          rOvf := s.rOvf || decide (0x1780 < s.dfRcnt.toNat + n)
          ckWarn := warn
          rspValid := true
          rspRes := BitVec.ofNat 32 (n * 65536 + 3)
          rspErr := .ok }
      ∧ ramAppended s t 0x7000 0x1780 s.dfRcnt.toNat (contentOf M))
  ∧ (¬ reverbMessage M →
    t = { s with
          dfMlen := 0
          dfMbuf := Memory.store s.dfMbuf s.dfMlen.toNat 0xF7
          ram := t.ram
          dfPcnt := BitVec.ofNat 15 (min (s.dfPcnt.toNat + n) 0x7000)
          pOvf := s.pOvf || decide (0x7000 < s.dfPcnt.toNat + n)
          ckWarn := warn
          rspValid := true
          rspRes := BitVec.ofNat 32 (n * 65536 + 1)
          rspErr := .ok }
      ∧ ramAppended s t 0 0x7000 s.dfPcnt.toNat (contentOf M))

/-- Two states that differ in DF_MBUF only, and there only at DF_MLEN and above. -/
def sameBelowLength (s t : State) : Prop :=
  t = { s with dfMbuf := t.dfMbuf } ∧
    ∀ i, i < s.dfMlen.toNat → Memory.lookup t.dfMbuf i = Memory.lookup s.dfMbuf i

/-- The extra condition of an opcode row (30_encoding R74). -/
def rowCondition (r : OpcodeRow) (w : Word) : Prop :=
  r.mnemonic = .RREG → (w.extractLsb' 0 8).toNat ≤ 0x0C

end Sys2Proof.Machine

/-! ## Reset and the command port -/

/-- 10_state R22, 70_reset R300: the value of every register right after reset. -/
def Obligations.ResetHoldsTheListedValues : Prop :=
  let r := State.reset
  r.ctrlStrict = false ∧ r.abase = 0 ∧ r.ckacc = 0 ∧ r.dfPcnt = 0 ∧ r.dfRcnt = 0 ∧ r.dfMlen = 0
    ∧ r.dfStat = 0 ∧ r.frPhase.code = 0 ∧ r.frPos = 0 ∧ r.frLen = 0 ∧ r.frBase = 0 ∧ r.frSum = 0
    ∧ r.frCend = 0
    ∧ ∀ sel : Byte, sel.toNat ≤ 0x0C →
        exec (.rreg sel) r = .next { r with rspValid := true, rspRes := 0, rspErr := .ok }

/-- 70_reset R300: with `rst` asserted every register takes its reset value, RAM keeps its bytes, and a
command presented at the same time is not accepted. -/
def Obligations.ResetAssertedKeepsRamAndAcceptsNothing : Prop :=
  ∀ (s : State) (x : HostInput) (rest : List HostInput), s.inputs = x :: rest → x.rst = true →
    s.cmdReady = false ∧
    ∃ t, step s = .next t
      ∧ t.ctrlStrict = false ∧ t.abase = 0 ∧ t.ckacc = 0 ∧ t.dfPcnt = 0 ∧ t.dfRcnt = 0
      ∧ t.dfMlen = 0 ∧ t.dfStat = 0 ∧ t.frPhase = .idle ∧ t.frPos = 0 ∧ t.frLen = 0 ∧ t.frBase = 0
      ∧ t.frSum = 0 ∧ t.frCend = 0 ∧ t.inputs = rest
      ∧ ∀ a, t.ramRead a = s.ramRead a

/-- 00_scope R11, 30_encoding R76: when the host presents a word, the step runs that word after the
host's entry is taken off its list: a word that decodes is its command's execution, and a word that is
not well-formed answers (0, ILLEGAL) with nothing else changed. -/
def Obligations.StepRunsTheDecodedCommand : Prop :=
  ∀ (s : State) (w : Word) (rest : List HostInput), s.inputs = HostInput.command w :: rest →
    step s = runCommand w { s with inputs := rest }
    ∧ (∀ i : Instr, decode w = .ok i → step s = exec i { s with inputs := rest })
    ∧ (wellFormedWord w = false → step s = .next (illegalAnswer { s with inputs := rest }))

/-- 30_encoding R76 with 00_scope R11: a word that is not well-formed changes no state and answers
(0, ILLEGAL); a word that is runs one command. -/
def Obligations.IllegalWordsAnswerIllegal : Prop :=
  ∀ (w : Word) (s : State),
    (wellFormedWord w = false → runCommand w s = .next (illegalAnswer s))
    ∧ (wellFormedWord w = true →
        ∃ i, decode w = .ok i ∧ i.wellFormed = true ∧ runCommand w s = exec i s)

/-- 70_reset R301 as the model takes it (log entry 6): a step in which the host presents no command
changes nothing but the host's own list. -/
def Obligations.NoCommandLeavesTheBlockIdle : Prop :=
  ∀ s : State,
    (s.inputs = [] → step s = .next s)
    ∧ ∀ x rest, s.inputs = x :: rest → x.rst = false → x.cmdValid = false →
        step s = .next { s with inputs := rest }

/-! ## Encoding -/

/-- 30_encoding R71, R73: decoding the word of a well-formed command gives the command back. -/
def Obligations.DecodeInvertsEncode : Prop :=
  ∀ i : Instr, i.wellFormed = true → decode (encode i) = .ok i

/-- 30_encoding R71, R73: a word that decodes is the word of the well-formed command it decodes to, so no
bit of a word is dropped. -/
def Obligations.EncodeInvertsDecode : Prop :=
  ∀ (w : Word) (i : Instr), decode w = .ok i → i.wellFormed = true ∧ encode i = w

/-- 30_encoding R74: a word stands for a row's command exactly when the row's match, mask and extra
condition hold, and no two rows match one word. R74 is marked derived by the spec. -/
def Obligations.EachRowSelectsItsCommand : Prop :=
  (∀ r, r ∈ opcodeTable → ∀ w : Word,
    (w &&& r.mask = r.matchBits ∧ rowCondition r w)
      ↔ ∃ i, decode w = .ok i ∧ i.mnemonic = r.mnemonic)
  ∧ ∀ r q, r ∈ opcodeTable → q ∈ opcodeTable → ∀ w : Word,
      w &&& r.mask = r.matchBits → w &&& q.mask = q.matchBits → r = q

/-- 30_encoding R75: a word whose opcode is in a reserved range is illegal, and every word is one of the
19 commands or illegal. -/
def Obligations.ReservedOpcodesAreIllegal : Prop :=
  ∀ (w : Word) (s : State),
    (let op := (w.extractLsb' 24 8).toNat
     (0x04 ≤ op ∧ op ≤ 0x07 ∨ 0x0A ≤ op ∧ op ≤ 0x0F ∨ 0x14 ≤ op ∧ op ≤ 0x1F
        ∨ 0x22 ≤ op ∧ op ≤ 0x2F ∨ 0x32 ≤ op ∧ op ≤ 0x3F ∨ 0x42 ≤ op ∧ op ≤ 0x47 ∨ 0x4B ≤ op) →
      runCommand w s = .next (illegalAnswer s))
    ∧ ((∃ i, decode w = .ok i) ∨ runCommand w s = .next (illegalAnswer s))

/-- 30_encoding R79, marked derived by the spec: the example lines with their words, the commands the
words stand for, and the illegal words with their answer. Spaces and letter case in a line are the
model's (log entry 14). -/
def Obligations.DecodesTheExampleWords : Prop :=
  (∀ p ∈ ([("NOP", 0x00000000), ("WCTRL 1", 0x01000001), ("WBASE 0x8000", 0x02008000),
        ("RREG DF_STAT", 0x03000006), ("MEMWR 0x7000, 0x5A", 0x0870005A),
        ("MEMRD 0x877F", 0x09877F00), ("CKADD 0x7F", 0x1100007F), ("AENC 0x7000", 0x20007000),
        ("ADEC 0x03, 0x60, 0x00", 0x21036000), ("CTOA 63", 0x3000003F), ("CTOI 'z'", 0x3100007A),
        ("FRSTART 0x8780", 0x40008780), ("DFPUSH 0xF7", 0x490000F7)] : List (String × Word)),
      (assembleLine p.1.toList).map (List.map encode) = some [p.2])
  ∧ decode 0x00000000 = .ok .nop
  ∧ decode 0x01000001 = .ok (.wctrl 1)
  ∧ decode 0x02008000 = .ok (.wbase 0x8000)
  ∧ decode 0x03000006 = .ok (.rreg 6)
  ∧ decode 0x0870005A = .ok (.memwr 0x7000 0x5A)
  ∧ decode 0x09877F00 = .ok (.memrd 0x877F)
  ∧ decode 0x1100007F = .ok (.ckadd 0x7F)
  ∧ decode 0x20007000 = .ok (.aenc 0x7000)
  ∧ decode 0x21036000 = .ok (.adec 0x03 0x60 0x00)
  ∧ decode 0x3000003F = .ok (.ctoa 63)
  ∧ decode 0x3100007A = .ok (.ctoi 0x7A)
  ∧ decode 0x40008780 = .ok (.frstart 0x8780)
  ∧ decode 0x490000F7 = .ok (.dfpush 0xF7)
  ∧ ∀ w ∈ ([0x00000001, 0x01000002, 0x0300000D, 0x02200000, 0x09000001, 0x04000000, 0xFF000000] :
        List Word), ∀ s : State, runCommand w s = .next (illegalAnswer s)

/-- 30_encoding R77: an assembled line is the command with exactly the operand numbers of the line, so an
operand that does not fit its field is refused; and every term of Instr has its line. R77 writes
`b = strict (0 or 1)`: that WCTRL and RREG take every operand that fits 8 bits, so that WCTRL above 1
and RREG above 0x0C assemble too, is the model's choice (log entry 14). -/
def Obligations.AssemblerNeverTruncates : Prop :=
  (∀ (m : Mnemonic) (ns : List Nat) (i : Instr),
    assemble m (ns.map .number) = some i → i.mnemonic = m ∧ operandsOf i = ns)
  ∧ ∀ i : Instr, assemble i.mnemonic ((operandsOf i).map .number) = some i

/-! ## Control and register access -/

/-- 40_control R100. -/
def Obligations.NopChangesNothing : Prop :=
  (∀ s : State, exec .nop s = .next { s with rspValid := true, rspRes := 0, rspErr := .ok })
  ∧ wordsZ 0x00 .nop

/-- 40_control R101. -/
def Obligations.WctrlSetsStrict : Prop :=
  (∀ (s : State) (b : Byte),
    (b.toNat ≤ 1 →
      exec (.wctrl b) s =
        .next { s with ctrlStrict := decide (b.toNat = 1), rspValid := true, rspRes := 0, rspErr := .ok })
    ∧ (1 < b.toNat → exec (.wctrl b) s = .next (illegalAnswer s)))
  ∧ wordsB 0x01 .wctrl

/-- 40_control R102. -/
def Obligations.WbaseSetsAbase : Prop :=
  (∀ (s : State) (a : BitVec 21),
    exec (.wbase a) s = .next { s with abase := a, rspValid := true, rspRes := 0, rspErr := .ok })
  ∧ wordsA 0x02 .wbase

/-- 40_control R103 with 10_state R30: the value each selector reads, as a number, and nothing changed
but the response. -/
def Obligations.RregReadsEachRegister : Prop :=
  (∀ (s : State) (sel : Byte),
    (∀ v : Nat,
      [if s.ctrlStrict then 1 else 0, s.abase.toNat, s.ckacc.toNat, s.dfPcnt.toNat, s.dfRcnt.toNat,
        s.dfMlen.toNat,
        (if s.ckWarn then 64 else 0) + (if s.rOvf then 32 else 0) + (if s.pOvf then 16 else 0)
          + s.dfErr.code.toNat,
        s.frPhase.code.toNat, s.frPos.toNat, s.frLen.toNat, s.frBase.toNat, s.frSum.toNat,
        s.frCend.toNat][sel.toNat]? = some v →
      exec (.rreg sel) s =
        .next { s with rspValid := true, rspRes := BitVec.ofNat 32 v, rspErr := .ok })
    ∧ (0x0C < sel.toNat → exec (.rreg sel) s = .next (illegalAnswer s)))
  ∧ wordsB 0x03 .rreg

/-! ## RAM access -/

/-- 41_memory_access R110: the byte at the offset, MEM_RANGE past the RAM; a byte nothing has written is
its RAM_INIT value, the model's free value `Config.ramInit` (log entry 3). -/
def Obligations.MemrdReadsOneByte : Prop :=
  (∀ (s : State) (addr : BitVec 16),
    exec (.memrd addr) s =
      if 0x8780 ≤ addr.toNat then
        .next { s with rspValid := true, rspRes := 0, rspErr := .memRange }
      else
        .next { s with
          rspValid := true
          rspRes := BitVec.ofNat 32 (s.ramRead addr.toNat).toNat
          rspErr := .ok })
  ∧ (∀ (s : State) (a : Nat), (∀ c ∈ s.ram, c.1 ≠ a) → s.ramRead a = Config.ramInit a)
  ∧ wordsMR 0x09 .memrd

/-- 41_memory_access R111: the byte is written, every other byte of RAM reads as before, and no register
changes. -/
def Obligations.MemwrWritesOneByte : Prop :=
  (∀ (s : State) (addr : BitVec 16) (d : Byte),
    (0x8780 ≤ addr.toNat →
      exec (.memwr addr d) s = .next { s with rspValid := true, rspRes := 0, rspErr := .memRange })
    ∧ (addr.toNat < 0x8780 →
      ∃ t, exec (.memwr addr d) s = .next t
        ∧ t = { s with ram := t.ram, rspValid := true, rspRes := 0, rspErr := .ok }
        ∧ t.ramRead addr.toNat = d
        ∧ ∀ a, a ≠ addr.toNat → t.ramRead a = s.ramRead a))
  ∧ wordsM 0x08 .memwr

/-- 20_memory R58, R51: a byte written by MEMWR is what MEMRD reads after any commands that are neither
MEMWR nor DFPUSH, the only two that write RAM. -/
def Obligations.WrittenByteIsReadLater : Prop :=
  ∀ (s t : State) (addr : BitVec 16) (d : Byte) (is : List Instr), addr.toNat < 0x8780 →
    (∀ i ∈ is, i.mnemonic ≠ .MEMWR ∧ i.mnemonic ≠ .DFPUSH) →
    runInstrs ([.memwr addr d] ++ is ++ [.memrd addr]) s = some t →
      t.rspErr = .ok ∧ t.rspRes.toNat = d.toNat

/-! ## Checksum -/

/-- 42_checksum R131. -/
def Obligations.CkclrClearsTheAccumulator : Prop :=
  (∀ s : State,
    exec .ckclr s = .next { s with ckacc := 0, rspValid := true, rspRes := 0, rspErr := .ok })
  ∧ wordsZ 0x10 .ckclr

/-- 42_checksum R132. -/
def Obligations.CkaddAddsModulo256 : Prop :=
  (∀ (s : State) (b : Byte),
    exec (.ckadd b) s =
      .next { s with
        ckacc := BitVec.ofNat 8 (s.ckacc.toNat + b.toNat)
        rspValid := true
        rspRes := BitVec.ofNat 32 ((s.ckacc.toNat + b.toNat) % 256)
        rspErr := .ok })
  ∧ wordsB 0x11 .ckadd

/-- 42_checksum R133 with R130: the checksum is the negated sum modulo 128. -/
def Obligations.CkgetFoldsTheSum : Prop :=
  (∀ s : State,
    exec .ckget s =
      .next { s with
        rspValid := true
        rspRes := BitVec.ofNat 32 ((128 - s.ckacc.toNat % 128) % 128)
        rspErr := .ok })
  ∧ wordsZ 0x12 .ckget

/-- 42_checksum R134: all 8 bits are compared, so a byte of 0x80 or more never matches. -/
def Obligations.CkvfyComparesAllEightBits : Prop :=
  (∀ (s : State) (b : Byte),
    exec (.ckvfy b) s =
      .next { s with
        rspValid := true
        rspRes := if (128 - s.ckacc.toNat % 128) % 128 = b.toNat then 1 else 0
        rspErr := .ok })
  ∧ wordsB 0x13 .ckvfy

/-- 42_checksum R135, marked derived by the spec: the laws of the checksum of a byte sequence. -/
def Obligations.ChecksumLaws : Prop :=
  (∀ x : List Byte,
    (sumBytes x).toNat = natSum x % 256
    ∧ ((sumBytes x).toNat + (checksum (sumBytes x)).toNat) % 128 = 0
    ∧ (natSum x + (checksum (sumBytes x)).toNat) % 128 = 0
    ∧ (checksum (sumBytes x)).toNat ≤ 0x7F
    ∧ (checksum (sumBytes x)).toNat = (128 - natSum x % 128) % 128
    ∧ ∀ y : List Byte, x.Perm y → checksum (sumBytes y) = checksum (sumBytes x))
  ∧ ∀ s s' : Byte, s.toNat % 128 = s'.toNat % 128 → checksum s = checksum s'

/-- 30_encoding R78, 42_checksum R131 to R133: the expansion of CKSEQ answers the checksum of its bytes,
leaves their sum in CKACC and changes nothing else. -/
def Obligations.CkseqComputesTheChecksum : Prop :=
  ∀ (bs : List Byte) (s : State),
    runInstrs (ckseq bs) s =
      some { s with
        ckacc := BitVec.ofNat 8 (natSum bs)
        rspValid := true
        rspRes := BitVec.ofNat 32 ((128 - natSum bs % 128) % 128)
        rspErr := .ok }

/-! ## Address triple -/

/-- 43_address R152 with R150 and R151: the triple of the sum modulo 2^21, packed. -/
def Obligations.AencEncodesTheSum : Prop :=
  (∀ (s : State) (off : BitVec 21),
    let a := (s.abase.toNat + off.toNat) % 2 ^ 21
    exec (.aenc off) s =
      .next { s with
        rspValid := true
        rspRes := BitVec.ofNat 32 (a / 2 ^ 14 * 2 ^ 16 + a / 2 ^ 7 % 2 ^ 7 * 2 ^ 8 + a % 2 ^ 7)
        rspErr := .ok })
  ∧ wordsA 0x20 .aenc

/-- 43_address R153: the address of a triple in range, ADDR_RANGE otherwise, and the two inverse laws,
which are the sentence "For every 21-bit a, ADEC of Enc21(a) gives a; …" that R153 marks derived. -/
def Obligations.AdecDecodesTheTriple : Prop :=
  (∀ (s : State) (h m l : Byte),
    exec (.adec h m l) s =
      if 0x7F < h.toNat ∨ 0x7F < m.toNat ∨ 0x7F < l.toNat then
        .next { s with rspValid := true, rspRes := 0, rspErr := .addrRange }
      else
        .next { s with
          rspValid := true
          rspRes := BitVec.ofNat 32 (h.toNat * 2 ^ 14 + m.toNat * 2 ^ 7 + l.toNat)
          rspErr := .ok })
  ∧ (∀ (s : State) (a : BitVec 21),
      exec (.adec (enc21 a).h (enc21 a).m (enc21 a).l) s =
        .next { s with rspValid := true, rspRes := BitVec.ofNat 32 a.toNat, rspErr := .ok })
  ∧ (∀ h m l : Byte, h.toNat ≤ 0x7F → m.toNat ≤ 0x7F → l.toNat ≤ 0x7F →
      enc21 ((decodeTriple h m l).setWidth 21) = ⟨h, m, l⟩)
  ∧ wordsT 0x21 .adec

/-! ## Character set -/

/-- 44_charset R174 with the table of R170: the entry of the table, CHAR_RANGE from 64 up. -/
def Obligations.CtoaReadsTheTable : Prop :=
  (∀ (s : State) (b : Byte),
    (∀ ch, Config.charTable[b.toNat]? = some ch →
      exec (.ctoa b) s =
        .next { s with rspValid := true, rspRes := BitVec.ofNat 32 ch.toNat, rspErr := .ok })
    ∧ (64 ≤ b.toNat →
      exec (.ctoa b) s = .next { s with rspValid := true, rspRes := 0, rspErr := .charRange }))
  ∧ Config.charTable.length = 64
  ∧ wordsB 0x30 .ctoa

/-- 44_charset R175 with the table of R170: the code of a table character, 63 for any other byte. -/
def Obligations.CtoiFindsTheCode : Prop :=
  (∀ (s : State) (b : Byte),
    (∀ c : Nat, Config.charTable[c]? = some b →
      exec (.ctoi b) s =
        .next { s with rspValid := true, rspRes := BitVec.ofNat 32 c, rspErr := .ok })
    ∧ (b ∉ Config.charTable →
      exec (.ctoi b) s = .next { s with rspValid := true, rspRes := 63, rspErr := .ok }))
  ∧ wordsB 0x31 .ctoi

/-- 44_charset R176, its laws marked derived by the spec: decoding is strict, encoding permissive. -/
def Obligations.TranscoderLaws : Prop :=
  (∀ c : Byte, c.toNat < 64 → (toAscii c).map toCode = some c)
  ∧ (∀ ch : Byte,
      toAscii (toCode ch) = some (if ch ∈ Config.charTable then ch else 0x2D))
  ∧ ∀ c : Byte, 64 ≤ c.toNat → toAscii c = none

/-! ## Framer -/

/-- 45_framer R190. -/
def Obligations.FrstartBeginsAFraming : Prop :=
  (∀ (s : State) (len : BitVec 24),
    exec (.frstart len) s =
      if 0x8780 < len.toNat then
        .next { s with rspValid := true, rspRes := 0, rspErr := .lenRange }
      else
        .next { s with
          frBase := s.abase
          frLen := BitVec.ofNat 16 len.toNat
          frPos := 0
          frSum := 0
          frCend := 0
          frPhase := if len.toNat = 0 then .idle else .h0
          rspValid := true
          rspRes := BitVec.ofNat 32 (len.toNat + 10 * ((len.toNat + 255) / 256))
          rspErr := .ok })
  ∧ wordsL 0x40 .frstart

/-- 45_framer R191 with R193: what FRPOP gives and writes in each phase; in phase DATA for an offset in
RAM. Every register not named is unchanged, and so is RAM. -/
def Obligations.FrpopFollowsItsPhase : Prop :=
  (∀ s : State,
    let a := (s.frBase.toNat + s.frPos.toNat) % 2 ^ 21
    let h := a / 2 ^ 14
    let m := a / 2 ^ 7 % 2 ^ 7
    let l := a % 2 ^ 7
    let d := (s.ramRead s.frPos.toNat).toNat
    let given := fun (t : State) (out : Nat) =>
      Host.Outcome.next (φ := Fault) (ρ := Refusal)
        { t with rspValid := true, rspRes := BitVec.ofNat 32 (0x100 + out), rspErr := .ok }
    let sum := fun (out : Nat) => BitVec.ofNat 8 (s.frSum.toNat + out)
    (s.frPhase = .idle →
      exec .frpop s = .next { s with rspValid := true, rspRes := 0, rspErr := .ok })
    ∧ (s.frPhase = .h0 → exec .frpop s = given { s with frSum := 0, frPhase := .h1 } 0xF0)
    ∧ (s.frPhase = .h1 → exec .frpop s = given { s with frPhase := .h2 } 0x41)
    ∧ (s.frPhase = .h2 → exec .frpop s = given { s with frPhase := .h3 } 0x00)
    ∧ (s.frPhase = .h3 → exec .frpop s = given { s with frPhase := .h4 } 0x14)
    ∧ (s.frPhase = .h4 → exec .frpop s = given { s with frPhase := .ah } 0x12)
    ∧ (s.frPhase = .ah → exec .frpop s = given { s with frSum := sum h, frPhase := .am } h)
    ∧ (s.frPhase = .am → exec .frpop s = given { s with frSum := sum m, frPhase := .al } m)
    ∧ (s.frPhase = .al →
      exec .frpop s =
        given { s with
          frSum := sum l
          frCend := BitVec.ofNat 16 (min (s.frPos.toNat + 256) s.frLen.toNat)
          frPhase := .data } l)
    ∧ (s.frPhase = .data → s.frPos.toNat < 0x8780 →
      exec .frpop s =
        given { s with
          frSum := sum d
          frPos := BitVec.ofNat 16 (s.frPos.toNat + 1)
          frPhase := if s.frPos.toNat + 1 = s.frCend.toNat then .ck else .data } d)
    ∧ (s.frPhase = .ck →
      exec .frpop s =
        given { s with frPhase := .eox } ((128 - s.frSum.toNat % 128) % 128))
    ∧ (s.frPhase = .eox →
      exec .frpop s =
        given { s with frPhase := if s.frPos = s.frLen then .idle else .h0 } 0xF7))
  ∧ wordsZ 0x41 .frpop

/-- 45_framer R192: from any state, FRSTART and as many FRPOPs as it answers give exactly the stream of
the RAM image, each pop a byte; then the framer is idle and gives none. That FRPOP gives the stream is
marked derived by the spec. -/
def Obligations.FramerGivesTheStream : Prop :=
  ∀ (s : State) (len : BitVec 24), len.toNat ≤ 0x8780 →
    ∃ t u, exec (.frstart len) s = .next t
      ∧ t.rspRes.toNat = (frame s.ramRead len.toNat s.abase).length
      ∧ popBytes t.rspRes.toNat t = some (frame s.ramRead len.toNat s.abase, u)
      ∧ u.frPhase = .idle
      ∧ exec .frpop u = .next { u with rspValid := true, rspRes := 0, rspErr := .ok }

/-- 45_framer R193: every message of a stream satisfies the checksum equation, its header and terminator
not summed. -/
def Obligations.GeneratedMessagesSumToZero : Prop :=
  ∀ (img : Nat → Byte) (len : Nat) (B : BitVec 21) (k : Nat), k < (len + 255) / 256 →
    ∃ body ck, frameMessage img B (256 * k) (min (256 * k + 256) len)
        = [0xF0, 0x41, 0x00, 0x14, 0x12] ++ body ++ [ck, 0xF7]
      ∧ 4 ≤ body.length ∧ body.length ≤ 259
      ∧ (natSum body + ck.toNat) % 128 = 0

/-- 45_framer R194: a framing of `len` bytes is `len + 10*ceil(len/256)` bytes long, and the bank's two
named cases. -/
def Obligations.StreamLengths : Prop :=
  (∀ (img : Nat → Byte) (len : Nat) (B : BitVec 21),
    (frame img len B).length = len + 10 * ((len + 255) / 256)
    ∧ (len = 0 → frame img len B = []))
  ∧ ∀ (img : Nat → Byte) (B : BitVec 21),
      (frame img 0x7000 B).length = 29792 ∧ (frame img 0x8780 B).length = 36048

/-- 45_framer R197: the framer leaves CKACC, ABASE, CTRL and the whole deframer state unchanged, and
writes no RAM. -/
def Obligations.FramerLeavesTheRestUnchanged : Prop :=
  ∀ (i : Instr) (s t : State), i.mnemonic = .FRSTART ∨ i.mnemonic = .FRPOP →
    exec i s = .next t →
      t.ckacc = s.ckacc ∧ t.abase = s.abase ∧ t.ctrlStrict = s.ctrlStrict ∧ t.dfPcnt = s.dfPcnt
        ∧ t.dfRcnt = s.dfRcnt ∧ t.dfMlen = s.dfMlen ∧ t.dfStat = s.dfStat ∧ t.dfMbuf = s.dfMbuf
        ∧ t.ram = s.ram ∧ t.inputs = s.inputs

/-- 45_framer R198: a byte written before its pop is the byte emitted and summed. In any phase, after a
MEMWR to any offset not yet emitted, and after a DFPUSH whatever it appended, some number of FRPOPs
reaches each such offset and the next one emits the byte RAM holds there; with any commands in between
that write no RAM, the pop of an offset still emits what the last command that could write left there.
A byte written after its pop changes nothing of the stream. -/
def Obligations.RamIsReadAtPopTime : Prop :=
  (∀ (s : State) (a : BitVec 16) (d : Byte), s.Inv → s.frPos.toNat ≤ a.toNat →
    a.toNat < s.frLen.toNat →
      ∃ k t, runInstrs ([.memwr a d] ++ frdrain k) s = some t ∧ t.frPos = a ∧ popsContent t d)
  ∧ (∀ (s u : State) (b : Byte) (a : BitVec 16), s.Inv → exec (.dfpush b) s = .next u →
      u.frPos.toNat ≤ a.toNat → a.toNat < u.frLen.toNat →
        ∃ k t, runInstrs (frdrain k) u = some t ∧ t.frPos = a ∧ popsContent t (u.ramRead a.toNat))
  ∧ (∀ (u t : State) (is : List Instr), (∀ i ∈ is, i.mnemonic ≠ .MEMWR ∧ i.mnemonic ≠ .DFPUSH) →
      runInstrs is u = some t → t.frPhase = .data → t.frPos.toNat < 0x8780 →
        popsContent t (u.ramRead t.frPos.toNat))
  ∧ ∀ (n : Nat) (s : State) (a : Nat) (d : Byte), a < s.frPos.toNat →
      (popBytes n (s.ramWrite a d)).map Prod.fst = (popBytes n s).map Prod.fst

/-- 20_memory R52: a whole image framed from 0x8000 crosses the deframer's region boundary exactly where
reverb memory begins in RAM. -/
def Obligations.ReverbBoundaryIsTheRamBoundary : Prop :=
  ∀ off : Nat, off < 0x8780 →
    let a := enc21 (0x8000 + BitVec.ofNat 21 off)
    (isReverb a.h a.m = true ↔ 0x7000 ≤ off)

/-! ## Deframer -/

/-- 46_deframer R220. -/
def Obligations.DfstartClearsTheDeframer : Prop :=
  (∀ s : State,
    exec .dfstart s =
      .next { s with
        dfMlen := 0
        dfPcnt := 0
        dfRcnt := 0
        dfErr := .ok
        pOvf := false
        rOvf := false
        ckWarn := false
        rspValid := true
        rspRes := 0
        rspErr := .ok })
  ∧ wordsZ 0x48 .dfstart

/-- 46_deframer R229: a non-zero DF_ERR answers every DFPUSH and DFEND and nothing changes; no command
but DFSTART changes it; content of a failing message is not appended. -/
def Obligations.StickyErrorStaysUntilDfstart : Prop :=
  (∀ (s : State) (b : Byte), s.dfErr ≠ .ok →
    exec (.dfpush b) s = .next { s with rspValid := true, rspRes := 0, rspErr := s.dfErr }
    ∧ exec .dfend s =
        .next { s with
          rspValid := true
          rspRes := BitVec.ofNat 32 (s.dfRcnt.toNat * 65536 + s.dfPcnt.toNat)
          rspErr := s.dfErr })
  ∧ (∀ (i : Instr) (s t : State), s.dfErr ≠ .ok → i.mnemonic ≠ .DFSTART →
      exec i s = .next t → t.dfErr = s.dfErr)
  ∧ ∀ (s t : State) (b : Byte), exec (.dfpush b) s = .next t → t.rspErr ≠ .ok →
      t.ram = s.ram ∧ t.dfPcnt = s.dfPcnt ∧ t.dfRcnt = s.dfRcnt

/-- 46_deframer R221, R222: a byte other than 0xF7 joins the message while the buffer has room, and
nothing else changes. -/
def Obligations.DfpushBuffersAByte : Prop :=
  (∀ (s : State) (b : Byte), s.dfErr = .ok → b ≠ 0xF7 → s.dfMlen.toNat < 265 →
    ∃ t, exec (.dfpush b) s = .next t
      ∧ t = { s with
          dfMbuf := t.dfMbuf
          dfMlen := BitVec.ofNat 9 (s.dfMlen.toNat + 1)
          rspValid := true
          rspRes := 0
          rspErr := .ok }
      ∧ t.mbufRead s.dfMlen.toNat = b
      ∧ (∀ i, i ≠ s.dfMlen.toNat → t.mbufRead i = s.mbufRead i)
      ∧ ∀ a, t.ramRead a = s.ramRead a)
  ∧ wordsB 0x49 .dfpush

/-- 46_deframer R224: a message of fewer than 10 bytes is FRAME_SHORT; a 266th byte that is not 0xF7 is
FRAME_LONG, and DF_MLEN stays 265. -/
def Obligations.MessageLengthBounds : Prop :=
  (∀ s : State, s.dfErr = .ok → s.dfMlen.toNat + 1 < 10 →
    exec (.dfpush 0xF7) s =
      .next { s with
        dfMlen := 0
        dfMbuf := Memory.store s.dfMbuf s.dfMlen.toNat 0xF7
        dfErr := .frameShort
        rspValid := true
        rspRes := 0
        rspErr := .frameShort })
  ∧ ∀ (s : State) (b : Byte), s.dfErr = .ok → b ≠ 0xF7 → s.dfMlen.toNat = 265 →
      exec (.dfpush b) s =
        .next { s with
          dfErr := .frameLong
          rspValid := true
          rspRes := 0
          rspErr := .frameLong }

/-- 46_deframer R225: a message whose first five bytes are not F0 41 00 14 12 is HEADER. -/
def Obligations.HeaderMustMatch : Prop :=
  ∀ s : State, s.dfErr = .ok → 9 ≤ s.dfMlen.toNat → s.dfMlen.toNat ≤ 265 →
    headerOf (pendingMessage s) ≠ [0xF0, 0x41, 0x00, 0x14, 0x12] →
    exec (.dfpush 0xF7) s =
      .next { s with
        dfMlen := 0
        dfMbuf := Memory.store s.dfMbuf s.dfMlen.toNat 0xF7
        dfErr := .header
        rspValid := true
        rspRes := 0
        rspErr := .header }

/-- 46_deframer R227: with STRICT = 1 a mismatch is CKSUM and nothing is appended; with STRICT = 0 the
message is accepted and CK_WARN is set. -/
def Obligations.ChecksumMismatch : Prop :=
  ∀ s : State, s.dfErr = .ok → 9 ≤ s.dfMlen.toNat → s.dfMlen.toNat ≤ 265 →
    s.dfPcnt.toNat ≤ 0x7000 → s.dfRcnt.toNat ≤ 0x1780 →
    headerOf (pendingMessage s) = [0xF0, 0x41, 0x00, 0x14, 0x12] →
    ¬ checksumMatches (pendingMessage s) →
    (s.ctrlStrict = true →
      exec (.dfpush 0xF7) s =
        .next { s with
          dfMlen := 0
          dfMbuf := Memory.store s.dfMbuf s.dfMlen.toNat 0xF7
          dfErr := .cksum
          rspValid := true
          rspRes := 0
          rspErr := .cksum })
    ∧ (s.ctrlStrict = false →
      ∃ t, exec (.dfpush 0xF7) s = .next t ∧ acceptedInto s t (pendingMessage s) true)

/-- 46_deframer R221, R226, R228, R231: a message with its right checksum is accepted in either mode:
its content goes to its region in order, bytes past the region's size are dropped and flagged, the
result word names the region and the content count, and after a dropped byte DFEND gives SIZE. -/
def Obligations.AcceptedMessageIsAppended : Prop :=
  ∀ s : State, s.dfErr = .ok → 9 ≤ s.dfMlen.toNat → s.dfMlen.toNat ≤ 265 →
    s.dfPcnt.toNat ≤ 0x7000 → s.dfRcnt.toNat ≤ 0x1780 →
    headerOf (pendingMessage s) = [0xF0, 0x41, 0x00, 0x14, 0x12] →
    checksumMatches (pendingMessage s) →
    ∃ t, exec (.dfpush 0xF7) s = .next t ∧ acceptedInto s t (pendingMessage s) s.ckWarn
      ∧ (t.pOvf = true ∨ t.rOvf = true → ∃ u, exec .dfend t = .next u ∧ u.rspErr = .size)

/-- 46_deframer R231: the result word of a DFPUSH: 0 for a byte other than 0xF7 and for every error; for
an accepted message of DF_MLEN + 1 bytes, `(n << 16) | (rev << 1) | 1` with n its content count. -/
def Obligations.DfpushResultWord : Prop :=
  ∀ (s t : State) (b : Byte), exec (.dfpush b) s = .next t →
    (b ≠ 0xF7 ∨ t.rspErr ≠ .ok → t.rspRes = 0)
    ∧ (b = 0xF7 → t.rspErr = .ok →
        ∃ n, n + 10 = s.dfMlen.toNat + 1 ∧ n ≤ 256
          ∧ t.rspRes.getLsbD 0 = true
          ∧ (t.rspRes.getLsbD 1 = true ↔ reverbMessage (pendingMessage s))
          ∧ (t.rspRes.extractLsb' 16 9).toNat = n
          ∧ t.rspRes.extractLsb' 2 14 = 0 ∧ t.rspRes.extractLsb' 25 7 = 0)

/-- 46_deframer R222, R223, R228: a whole message pushed byte by byte into an empty buffer, with the right
checksum, appends exactly its content, in either mode. -/
def Obligations.PushedMessageIsAppended : Prop :=
  ∀ (s : State) (h m l : Byte) (content : List Byte),
    s.dfErr = .ok → s.dfMlen = 0 → s.dfPcnt.toNat ≤ 0x7000 → s.dfRcnt.toNat ≤ 0x1780 →
    h ≠ 0xF7 → m ≠ 0xF7 → l ≠ 0xF7 → 0xF7 ∉ content → content.length ≤ 256 →
    ∃ t, runInstrs
        (dfsend ([0xF0, 0x41, 0x00, 0x14, 0x12, h, m, l] ++ content
          ++ [checksum (sumBytes ([h, m, l] ++ content)), 0xF7])) s = some t
      ∧ t.rspErr = .ok ∧ t.dfErr = .ok ∧ t.dfMlen = 0 ∧ t.ckWarn = s.ckWarn
      ∧ (if isReverb h m then
          t.rspRes.toNat = content.length * 65536 + 3 ∧ t.dfPcnt = s.dfPcnt
            ∧ t.dfRcnt.toNat = min (s.dfRcnt.toNat + content.length) 0x1780
            ∧ ramAppended s t 0x7000 0x1780 s.dfRcnt.toNat content
        else
          t.rspRes.toNat = content.length * 65536 + 1 ∧ t.dfRcnt = s.dfRcnt
            ∧ t.dfPcnt.toNat = min (s.dfPcnt.toNat + content.length) 0x7000
            ∧ ramAppended s t 0 0x7000 s.dfPcnt.toNat content)

/-- 46_deframer R230: both counts are answered whatever the error, and the first of the sticky error,
TRUNC and SIZE is reported. -/
def Obligations.DfendChecksTheSizes : Prop :=
  (∀ s : State,
    let res := BitVec.ofNat 32 (s.dfRcnt.toNat * 65536 + s.dfPcnt.toNat)
    exec .dfend s =
      if s.dfErr ≠ .ok then .next { s with rspValid := true, rspRes := res, rspErr := s.dfErr }
      else if s.dfMlen.toNat ≠ 0 then
        .next { s with dfErr := .trunc, rspValid := true, rspRes := res, rspErr := .trunc }
      else if s.pOvf = true ∨ s.rOvf = true ∨ s.dfPcnt.toNat ≠ 0x7000 ∨ s.dfRcnt.toNat ≠ 0x1780 then
        .next { s with dfErr := .size, rspValid := true, rspRes := res, rspErr := .size }
      else .next { s with rspValid := true, rspRes := res, rspErr := .ok })
  ∧ wordsZ 0x4A .dfend

/-! ## Framer and deframer together -/

/-- 46_deframer R232, marked derived by the spec: the round trip of a whole bank image with no byte 0xF7, in both STRICT modes. -/
def Obligations.WholeBankRoundTrip : Prop :=
  ∀ s : State, s.abase = 0x8000 → (∀ a, a < 0x8780 → s.ramRead a ≠ 0xF7) →
    ∃ s1 s2 s3 stream,
      exec (.frstart 0x8780) s = .next s1
      ∧ popBytes 36048 s1 = some (stream, s2)
      ∧ runInstrs ([.dfstart] ++ dfsend stream ++ [.dfend]) s2 = some s3
      ∧ s3.rspRes = 0x17807000 ∧ s3.rspErr = .ok ∧ s3.ckWarn = false
      ∧ ∀ a, a < 0x8780 → s3.ramRead a = s.ramRead a

/-- 46_deframer R233, marked derived by the spec: the round trip of patch memory alone ends with SIZE,
the image again in RAM. -/
def Obligations.PatchMemoryRoundTrip : Prop :=
  ∀ (s : State) (len : BitVec 24), s.abase = 0x8000 → 1 ≤ len.toNat → len.toNat ≤ 0x7000 →
    (∀ a, a < len.toNat → s.ramRead a ≠ 0xF7) →
    ∃ s1 s2 s3 stream,
      exec (.frstart len) s = .next s1
      ∧ popBytes s1.rspRes.toNat s1 = some (stream, s2)
      ∧ runInstrs ([.dfstart] ++ dfsend stream ++ [.dfend]) s2 = some s3
      ∧ s3.rspErr = .size ∧ s3.dfPcnt.toNat = len.toNat ∧ s3.dfRcnt = 0
      ∧ ∀ a, a < len.toNat → s3.ramRead a = s.ramRead a

/-- 70_reset R313: FRPOP and DFPUSH interact only through RAM: where the DFPUSH writes none, their order
changes nothing but the response that stands last on the port. -/
def Obligations.FrpopAndDfpushCommute : Prop :=
  ∀ (s t u : State) (b : Byte),
    runInstrs [.frpop, .dfpush b] s = some t → runInstrs [.dfpush b, .frpop] s = some u →
    t.ram = s.ram →
      { t with rspRes := u.rspRes, rspErr := u.rspErr } = u

/-! ## The whole machine -/

/-- The invariant of 10_state R34 holds after reset. -/
def Obligations.ResetSatisfiesTheInvariant : Prop := State.reset.Inv

/-- 10_state R34: every step keeps the invariant, whatever the host drives. -/
def Obligations.EveryStepKeepsTheInvariant : Prop :=
  ∀ s t : State, s.Inv → step s = .next t → t.Inv

/-- 10_state R34, marked derived by the spec: the listed invariants hold in every state that steps from
reset reach, whatever the host drives. -/
def Obligations.ReachableStatesKeepTheListedInvariants : Prop :=
  ∀ (driven : List HostInput) (k : Nat) (s : State),
    Sys2Proof.core.run k { State.reset with inputs := driven } = .next s →
      s.dfPcnt.toNat ≤ 0x7000 ∧ s.dfRcnt.toNat ≤ 0x1780 ∧ s.dfMlen.toNat ≤ 265
      ∧ s.frPos.toNat ≤ s.frLen.toNat ∧ s.frLen.toNat ≤ 0x8780
      ∧ (s.frPhase = .idle → s.frPos = s.frLen)
      ∧ (s.frPhase = .data →
          s.frPos.toNat < s.frCend.toNat ∧ s.frCend.toNat ≤ s.frLen.toNat
            ∧ s.frCend.toNat - s.frPos.toNat / 256 * 256 ≤ 256)
      ∧ s.frPhase.code.toNat < 12
      ∧ s.dfErr ∈ [ErrorCode.ok, .header, .size, .cksum, .frameShort, .frameLong, .trunc]

/-- 10_state R20, 20_memory R58: the host's sequence of commands is the program: presented one a step, the
commands execute in order, each on the state the one before it left. -/
def Obligations.HostProgramRunsInOrder : Prop :=
  ∀ (is : List Instr) (s t : State), (∀ i ∈ is, i.wellFormed = true) → s.inputs = [] →
    runInstrs is s = some t →
      Sys2Proof.core.run is.length { s with inputs := hostProgram is } = .next t

/-- 00_scope R11, 60_exceptions R262: in a state of the invariant every step ends in a next state, so a
command always answers, with OK or with an error code. -/
def Obligations.EveryStepCompletes : Prop :=
  ∀ s : State, s.Inv → completes (step s)
    ∧ ∀ i : Instr, ∃ t, exec i s = .next t ∧ t.rspValid = true ∧ t.inputs = s.inputs

/-- The model's own stops (log entry 8), exactly where 20_memory R50 gives no RAM byte and 10_state R28 no
buffer byte: FRPOP in phase DATA past the RAM, DFPUSH with DF_MLEN past the buffer. The invariant of
10_state R34 excludes both, and nothing is ever refused. -/
def Obligations.StopsOnlyWhereNoByteExists : Prop :=
  ∀ (i : Instr) (s : State) (r : Fault),
    (exec i s = .fault r ↔
      (i = .frpop ∧ s.frPhase = .data ∧ 0x8780 ≤ s.frPos.toNat ∧ r = .noSuchRamByte s.frPos.toNat)
      ∨ (∃ b, i = .dfpush b ∧ s.dfErr = .ok ∧ 266 ≤ s.dfMlen.toNat
          ∧ r = .noSuchBufferByte s.dfMlen.toNat))
    ∧ (exec i s = .fault r → ¬ s.Inv)
    ∧ ∀ q, exec i s ≠ .refused q

/-- 10_state R22, 20_memory R51: each register and RAM changes only by the commands its row names. -/
def Obligations.RegistersWrittenByTheirCommandsOnly : Prop :=
  ∀ (i : Instr) (s t : State), exec i s = .next t →
    let m := i.mnemonic
    (t.ctrlStrict ≠ s.ctrlStrict → m = .WCTRL)
    ∧ (t.abase ≠ s.abase → m = .WBASE)
    ∧ (t.ckacc ≠ s.ckacc → m = .CKCLR ∨ m = .CKADD)
    ∧ (t.dfPcnt ≠ s.dfPcnt ∨ t.dfRcnt ≠ s.dfRcnt ∨ t.dfMlen ≠ s.dfMlen →
        m = .DFSTART ∨ m = .DFPUSH)
    ∧ (t.dfErr ≠ s.dfErr → m = .DFSTART ∨ m = .DFPUSH ∨ m = .DFEND)
    ∧ (t.pOvf ≠ s.pOvf ∨ t.rOvf ≠ s.rOvf ∨ t.ckWarn ≠ s.ckWarn → m = .DFSTART ∨ m = .DFPUSH)
    ∧ (t.frPhase ≠ s.frPhase ∨ t.frPos ≠ s.frPos ∨ t.frSum ≠ s.frSum ∨ t.frCend ≠ s.frCend →
        m = .FRSTART ∨ m = .FRPOP)
    ∧ (t.frLen ≠ s.frLen ∨ t.frBase ≠ s.frBase → m = .FRSTART)
    ∧ (t.dfMbuf ≠ s.dfMbuf → m = .DFPUSH)
    ∧ (t.ram ≠ s.ram → m = .MEMWR ∨ m = .DFPUSH)
    ∧ t.inputs = s.inputs

/-- 00_scope R12, 60_exceptions R262: a command that ends with an error answers result 0, DFEND apart, and
changes nothing but what its rule lists: DF_ERR, DF_MLEN and the buffer for DFPUSH, DF_ERR for DFEND,
nothing for any other. -/
def Obligations.ErrorsChangeOnlyWhatTheirRuleLists : Prop :=
  ∀ (i : Instr) (s t : State), exec i s = .next t → t.rspErr ≠ .ok →
    (i.mnemonic ≠ .DFEND → t.rspRes = 0)
    ∧ (i.mnemonic ≠ .DFEND → i.mnemonic ≠ .DFPUSH →
        t = { s with rspValid := true, rspRes := 0, rspErr := t.rspErr })
    ∧ (i.mnemonic = .DFPUSH →
        t = { s with
          dfErr := t.rspErr
          dfMlen := t.dfMlen
          dfMbuf := t.dfMbuf
          rspValid := true
          rspRes := 0
          rspErr := t.rspErr })
    ∧ (i.mnemonic = .DFEND →
        t = { s with
          dfErr := t.rspErr
          rspValid := true
          rspRes := BitVec.ofNat 32 (s.dfRcnt.toNat * 65536 + s.dfPcnt.toNat)
          rspErr := t.rspErr })

/-- 60_exceptions R260: the number of each code, and the commands that raise it. -/
def Obligations.ErrorCodesAreRaisedByTheirCommands : Prop :=
  ([ErrorCode.ok, .header, .size, .charRange, .cksum, .frameShort, .frameLong, .trunc, .addrRange,
      .lenRange, .memRange, .illegal].map fun e => e.code.toNat)
    = [0, 1, 2, 3, 4, 5, 6, 7, 8, 9, 10, 11]
  ∧ ∀ (i : Instr) (s t : State), i.wellFormed = true → exec i s = .next t →
      let m := i.mnemonic
      let sticky := fun e : ErrorCode => s.dfErr = e ∧ (m = .DFPUSH ∨ m = .DFEND)
      (t.rspErr = .header → m = .DFPUSH ∨ sticky .header)
      ∧ (t.rspErr = .size → m = .DFEND ∨ sticky .size)
      ∧ (t.rspErr = .charRange → m = .CTOA ∨ sticky .charRange)
      ∧ (t.rspErr = .cksum → m = .DFPUSH ∧ s.ctrlStrict = true ∨ sticky .cksum)
      ∧ (t.rspErr = .frameShort → m = .DFPUSH ∨ sticky .frameShort)
      ∧ (t.rspErr = .frameLong → m = .DFPUSH ∨ sticky .frameLong)
      ∧ (t.rspErr = .trunc → m = .DFEND ∨ sticky .trunc)
      ∧ (t.rspErr = .addrRange → m = .ADEC ∨ sticky .addrRange)
      ∧ (t.rspErr = .lenRange → m = .FRSTART ∨ sticky .lenRange)
      ∧ (t.rspErr = .memRange → m = .MEMRD ∨ m = .MEMWR ∨ sticky .memRange)
      ∧ (t.rspErr = .illegal → sticky .illegal)

/-- 10_state R28: a byte of DF_MBUF at index DF_MLEN or above is never read: two states that differ only
there answer every command alike and again differ only there. -/
def Obligations.BufferPastTheLengthIsUnobservable : Prop :=
  ∀ (i : Instr) (s s' t : State), sameBelowLength s s' → exec i s = .next t →
    ∃ t', exec i s' = .next t' ∧ sameBelowLength t t'
end

