-- ==== Sys2Proof/Laws/Encoding.lean ====
section
/-! SUPPORT. What each field reads from a word that the encoder writes, format by format
(30_encoding R71). -/

namespace Sys2Proof

theorem getLsbD_opcodeBits (op : Byte) (i : Nat) :
    (opcodeBits op).getLsbD i = (decide (24 ≤ i) && op.getLsbD (i - 24)) := by
  unfold opcodeBits
  by_cases h : 24 ≤ i
  · by_cases h2 : i < 32
    · simp [h, h2, show ¬ i < 24 by omega]
    · simp [h, h2, BitVec.getLsbD_of_ge op (i - 24) (by omega)]
  · simp [h, show i < 24 by omega]

/-- The bits of a field of `n` bits put at bit `k` of a word. -/
theorem getLsbD_placed (n k : Nat) (x : BitVec n) (i : Nat) (hk : k + n ≤ 32) :
    (x.setWidth 32 <<< k).getLsbD i = (decide (k ≤ i) && x.getLsbD (i - k)) := by
  by_cases h : k ≤ i
  · by_cases h2 : i < 32
    · simp [h, h2, show ¬ i < k by omega]
    · simp [h, h2, BitVec.getLsbD_of_ge x (i - k) (by omega)]
  · simp [h, show i < k by omega]

/-- The bits of a field of `n` bits put at bit 0 of a word. -/
theorem getLsbD_widened (n : Nat) (x : BitVec n) (i : Nat) (hk : n ≤ 32) :
    (x.setWidth 32).getLsbD i = x.getLsbD i := by
  by_cases h2 : i < 32
  · simp [h2]
  · simp [h2, BitVec.getLsbD_of_ge x i (by omega)]


/-! ## Format Z -/

theorem fieldOpcode_wordZ (op : Byte) :
    fieldOpcode (wordZ op) = op := by
  apply BitVec.eq_of_getLsbD_eq
  intro i hi
  simp [fieldOpcode, wordZ, getLsbD_opcodeBits, hi]

theorem reserved_wordZ (op : Byte) :
    (wordZ op).extractLsb' 0 24 = 0#24 := by
  apply BitVec.eq_of_getLsbD_eq
  intro i hi
  have h0 : ¬ 24 ≤ i := by omega
  simp [wordZ, getLsbD_opcodeBits, hi, h0]

/-! ## Format B -/

theorem fieldOpcode_wordB (op : Byte) (b : Byte) :
    fieldOpcode (wordB op b) = op := by
  apply BitVec.eq_of_getLsbD_eq
  intro i hi
  have h0 := BitVec.getLsbD_of_ge b (24 + i) (by omega)
  simp [fieldOpcode, wordB, getLsbD_opcodeBits, getLsbD_widened 8 b _ (by omega), hi, h0]

theorem fieldB_wordB (op : Byte) (b : Byte) :
    fieldB (wordB op b) = b := by
  apply BitVec.eq_of_getLsbD_eq
  intro i hi
  have h0 : ¬ 24 ≤ i := by omega
  simp [fieldB, wordB, getLsbD_opcodeBits, getLsbD_widened 8 b _ (by omega), hi, h0]

theorem reserved_wordB (op : Byte) (b : Byte) :
    (wordB op b).extractLsb' 8 16 = 0#16 := by
  apply BitVec.eq_of_getLsbD_eq
  intro i hi
  have h0 : ¬ 24 ≤ 8 + i := by omega
  simp [wordB, getLsbD_opcodeBits, getLsbD_widened 8 b _ (by omega), hi, h0]

/-! ## Format A -/

theorem fieldOpcode_wordA (op : Byte) (imm21 : BitVec 21) :
    fieldOpcode (wordA op imm21) = op := by
  apply BitVec.eq_of_getLsbD_eq
  intro i hi
  have h0 := BitVec.getLsbD_of_ge imm21 (24 + i) (by omega)
  simp [fieldOpcode, wordA, getLsbD_opcodeBits, getLsbD_widened 21 imm21 _ (by omega), hi, h0]

theorem fieldImm21_wordA (op : Byte) (imm21 : BitVec 21) :
    fieldImm21 (wordA op imm21) = imm21 := by
  apply BitVec.eq_of_getLsbD_eq
  intro i hi
  have h0 : ¬ 24 ≤ i := by omega
  simp [fieldImm21, wordA, getLsbD_opcodeBits, getLsbD_widened 21 imm21 _ (by omega), hi, h0]

theorem reserved_wordA (op : Byte) (imm21 : BitVec 21) :
    (wordA op imm21).extractLsb' 21 3 = 0#3 := by
  apply BitVec.eq_of_getLsbD_eq
  intro i hi
  have h0 : ¬ 24 ≤ 21 + i := by omega
  simp [wordA, getLsbD_opcodeBits, getLsbD_widened 21 imm21 _ (by omega), hi, h0]

/-! ## Format T -/

theorem fieldOpcode_wordT (op : Byte) (h : Byte) (m : Byte) (l : Byte) :
    fieldOpcode (wordT op h m l) = op := by
  apply BitVec.eq_of_getLsbD_eq
  intro i hi
  have h0 := BitVec.getLsbD_of_ge h (24 + i - 16) (by omega)
  have h1 := BitVec.getLsbD_of_ge m (24 + i - 8) (by omega)
  have h2 := BitVec.getLsbD_of_ge l (24 + i) (by omega)
  simp [fieldOpcode, wordT, getLsbD_opcodeBits, getLsbD_placed 8 16 h _ (by omega), getLsbD_placed 8 8 m _ (by omega), getLsbD_widened 8 l _ (by omega), hi, h0, h1, h2]

theorem fieldH_wordT (op : Byte) (h : Byte) (m : Byte) (l : Byte) :
    fieldH (wordT op h m l) = h := by
  apply BitVec.eq_of_getLsbD_eq
  intro i hi
  have h0 : ¬ 24 ≤ 16 + i := by omega
  have h1 := BitVec.getLsbD_of_ge m (16 + i - 8) (by omega)
  have h2 := BitVec.getLsbD_of_ge l (16 + i) (by omega)
  simp [fieldH, wordT, getLsbD_opcodeBits, getLsbD_placed 8 16 h _ (by omega), getLsbD_placed 8 8 m _ (by omega), getLsbD_widened 8 l _ (by omega), hi, h0, h1, h2]

theorem fieldM_wordT (op : Byte) (h : Byte) (m : Byte) (l : Byte) :
    fieldM (wordT op h m l) = m := by
  apply BitVec.eq_of_getLsbD_eq
  intro i hi
  have h0 : ¬ 24 ≤ 8 + i := by omega
  have h1 : ¬ 16 ≤ 8 + i := by omega
  simp [fieldM, wordT, getLsbD_opcodeBits, getLsbD_placed 8 16 h _ (by omega), getLsbD_placed 8 8 m _ (by omega), getLsbD_widened 8 l _ (by omega), hi, h0, h1]

theorem fieldL_wordT (op : Byte) (h : Byte) (m : Byte) (l : Byte) :
    fieldL (wordT op h m l) = l := by
  apply BitVec.eq_of_getLsbD_eq
  intro i hi
  have h0 : ¬ 24 ≤ i := by omega
  have h1 : ¬ 16 ≤ i := by omega
  have h2 : ¬ 8 ≤ i := by omega
  simp [fieldL, wordT, getLsbD_opcodeBits, getLsbD_placed 8 16 h _ (by omega), getLsbD_placed 8 8 m _ (by omega), getLsbD_widened 8 l _ (by omega), hi, h0, h1, h2]

/-! ## Format M -/

theorem fieldOpcode_wordM (op : Byte) (addr : BitVec 16) (d : Byte) :
    fieldOpcode (wordM op addr d) = op := by
  apply BitVec.eq_of_getLsbD_eq
  intro i hi
  have h0 := BitVec.getLsbD_of_ge addr (24 + i - 8) (by omega)
  have h1 := BitVec.getLsbD_of_ge d (24 + i) (by omega)
  simp [fieldOpcode, wordM, getLsbD_opcodeBits, getLsbD_placed 16 8 addr _ (by omega), getLsbD_widened 8 d _ (by omega), hi, h0, h1]

theorem fieldAddr_wordM (op : Byte) (addr : BitVec 16) (d : Byte) :
    fieldAddr (wordM op addr d) = addr := by
  apply BitVec.eq_of_getLsbD_eq
  intro i hi
  have h0 : ¬ 24 ≤ 8 + i := by omega
  simp [fieldAddr, wordM, getLsbD_opcodeBits, getLsbD_placed 16 8 addr _ (by omega), getLsbD_widened 8 d _ (by omega), hi, h0]

theorem fieldD_wordM (op : Byte) (addr : BitVec 16) (d : Byte) :
    fieldD (wordM op addr d) = d := by
  apply BitVec.eq_of_getLsbD_eq
  intro i hi
  have h0 : ¬ 24 ≤ i := by omega
  have h1 : ¬ 8 ≤ i := by omega
  simp [fieldD, wordM, getLsbD_opcodeBits, getLsbD_placed 16 8 addr _ (by omega), getLsbD_widened 8 d _ (by omega), hi, h0, h1]

/-! ## Format MR -/

theorem fieldOpcode_wordMR (op : Byte) (addr : BitVec 16) :
    fieldOpcode (wordMR op addr) = op := by
  apply BitVec.eq_of_getLsbD_eq
  intro i hi
  have h0 := BitVec.getLsbD_of_ge addr (24 + i - 8) (by omega)
  simp [fieldOpcode, wordMR, getLsbD_opcodeBits, getLsbD_placed 16 8 addr _ (by omega), hi, h0]

theorem fieldAddr_wordMR (op : Byte) (addr : BitVec 16) :
    fieldAddr (wordMR op addr) = addr := by
  apply BitVec.eq_of_getLsbD_eq
  intro i hi
  have h0 : ¬ 24 ≤ 8 + i := by omega
  simp [fieldAddr, wordMR, getLsbD_opcodeBits, getLsbD_placed 16 8 addr _ (by omega), hi, h0]

theorem reserved_wordMR (op : Byte) (addr : BitVec 16) :
    (wordMR op addr).extractLsb' 0 8 = 0#8 := by
  apply BitVec.eq_of_getLsbD_eq
  intro i hi
  have h0 : ¬ 24 ≤ i := by omega
  have h1 : ¬ 8 ≤ i := by omega
  simp [wordMR, getLsbD_opcodeBits, getLsbD_placed 16 8 addr _ (by omega), hi, h0, h1]

/-! ## Format L -/

theorem fieldOpcode_wordL (op : Byte) (len : BitVec 24) :
    fieldOpcode (wordL op len) = op := by
  apply BitVec.eq_of_getLsbD_eq
  intro i hi
  simp [fieldOpcode, wordL, getLsbD_opcodeBits, getLsbD_widened 24 len _ (by omega), hi]

theorem fieldLen_wordL (op : Byte) (len : BitVec 24) :
    fieldLen (wordL op len) = len := by
  apply BitVec.eq_of_getLsbD_eq
  intro i hi
  have h0 : ¬ 24 ≤ i := by omega
  simp [fieldLen, wordL, getLsbD_opcodeBits, getLsbD_widened 24 len _ (by omega), hi, h0]

end Sys2Proof
end

