-- ==== Sys2Proof/Laws/State.lean ====
section
/-! SUPPORT. One lemma per field per update of State: what each shared operation leaves in each field. -/

namespace Sys2Proof.Machine

/-! ## `State.respond` -/

section
variable (s : State) (res : Word) (err : ErrorCode)

@[simp] theorem State.respond_ctrlStrict : (s.respond res err).ctrlStrict = s.ctrlStrict := rfl
@[simp] theorem State.respond_abase : (s.respond res err).abase = s.abase := rfl
@[simp] theorem State.respond_ckacc : (s.respond res err).ckacc = s.ckacc := rfl
@[simp] theorem State.respond_dfPcnt : (s.respond res err).dfPcnt = s.dfPcnt := rfl
@[simp] theorem State.respond_dfRcnt : (s.respond res err).dfRcnt = s.dfRcnt := rfl
@[simp] theorem State.respond_dfMlen : (s.respond res err).dfMlen = s.dfMlen := rfl
@[simp] theorem State.respond_dfErr : (s.respond res err).dfErr = s.dfErr := rfl
@[simp] theorem State.respond_pOvf : (s.respond res err).pOvf = s.pOvf := rfl
@[simp] theorem State.respond_rOvf : (s.respond res err).rOvf = s.rOvf := rfl
@[simp] theorem State.respond_ckWarn : (s.respond res err).ckWarn = s.ckWarn := rfl
@[simp] theorem State.respond_frPhase : (s.respond res err).frPhase = s.frPhase := rfl
@[simp] theorem State.respond_frPos : (s.respond res err).frPos = s.frPos := rfl
@[simp] theorem State.respond_frLen : (s.respond res err).frLen = s.frLen := rfl
@[simp] theorem State.respond_frBase : (s.respond res err).frBase = s.frBase := rfl
@[simp] theorem State.respond_frSum : (s.respond res err).frSum = s.frSum := rfl
@[simp] theorem State.respond_frCend : (s.respond res err).frCend = s.frCend := rfl
@[simp] theorem State.respond_dfMbuf : (s.respond res err).dfMbuf = s.dfMbuf := rfl
@[simp] theorem State.respond_ram : (s.respond res err).ram = s.ram := rfl
@[simp] theorem State.respond_inputs : (s.respond res err).inputs = s.inputs := rfl
@[simp] theorem State.respond_rspValid : (s.respond res err).rspValid = true := rfl
@[simp] theorem State.respond_rspRes : (s.respond res err).rspRes = res := rfl
@[simp] theorem State.respond_rspErr : (s.respond res err).rspErr = err := rfl

end

/-! ## `State.raise` -/

section
variable (s : State) (err : ErrorCode)

@[simp] theorem State.raise_ctrlStrict : (s.raise err).ctrlStrict = s.ctrlStrict := rfl
@[simp] theorem State.raise_abase : (s.raise err).abase = s.abase := rfl
@[simp] theorem State.raise_ckacc : (s.raise err).ckacc = s.ckacc := rfl
@[simp] theorem State.raise_dfPcnt : (s.raise err).dfPcnt = s.dfPcnt := rfl
@[simp] theorem State.raise_dfRcnt : (s.raise err).dfRcnt = s.dfRcnt := rfl
@[simp] theorem State.raise_dfMlen : (s.raise err).dfMlen = s.dfMlen := rfl
@[simp] theorem State.raise_dfErr : (s.raise err).dfErr = s.dfErr := rfl
@[simp] theorem State.raise_pOvf : (s.raise err).pOvf = s.pOvf := rfl
@[simp] theorem State.raise_rOvf : (s.raise err).rOvf = s.rOvf := rfl
@[simp] theorem State.raise_ckWarn : (s.raise err).ckWarn = s.ckWarn := rfl
@[simp] theorem State.raise_frPhase : (s.raise err).frPhase = s.frPhase := rfl
@[simp] theorem State.raise_frPos : (s.raise err).frPos = s.frPos := rfl
@[simp] theorem State.raise_frLen : (s.raise err).frLen = s.frLen := rfl
@[simp] theorem State.raise_frBase : (s.raise err).frBase = s.frBase := rfl
@[simp] theorem State.raise_frSum : (s.raise err).frSum = s.frSum := rfl
@[simp] theorem State.raise_frCend : (s.raise err).frCend = s.frCend := rfl
@[simp] theorem State.raise_dfMbuf : (s.raise err).dfMbuf = s.dfMbuf := rfl
@[simp] theorem State.raise_ram : (s.raise err).ram = s.ram := rfl
@[simp] theorem State.raise_inputs : (s.raise err).inputs = s.inputs := rfl
@[simp] theorem State.raise_rspValid : (s.raise err).rspValid = true := rfl
@[simp] theorem State.raise_rspRes : (s.raise err).rspRes = 0#32 := rfl
@[simp] theorem State.raise_rspErr : (s.raise err).rspErr = err := rfl

end

/-! ## `State.ramWrite` -/

section
variable (s : State) (a : Nat) (v : Byte)

@[simp] theorem State.ramWrite_ctrlStrict : (s.ramWrite a v).ctrlStrict = s.ctrlStrict := rfl
@[simp] theorem State.ramWrite_abase : (s.ramWrite a v).abase = s.abase := rfl
@[simp] theorem State.ramWrite_ckacc : (s.ramWrite a v).ckacc = s.ckacc := rfl
@[simp] theorem State.ramWrite_dfPcnt : (s.ramWrite a v).dfPcnt = s.dfPcnt := rfl
@[simp] theorem State.ramWrite_dfRcnt : (s.ramWrite a v).dfRcnt = s.dfRcnt := rfl
@[simp] theorem State.ramWrite_dfMlen : (s.ramWrite a v).dfMlen = s.dfMlen := rfl
@[simp] theorem State.ramWrite_dfErr : (s.ramWrite a v).dfErr = s.dfErr := rfl
@[simp] theorem State.ramWrite_pOvf : (s.ramWrite a v).pOvf = s.pOvf := rfl
@[simp] theorem State.ramWrite_rOvf : (s.ramWrite a v).rOvf = s.rOvf := rfl
@[simp] theorem State.ramWrite_ckWarn : (s.ramWrite a v).ckWarn = s.ckWarn := rfl
@[simp] theorem State.ramWrite_frPhase : (s.ramWrite a v).frPhase = s.frPhase := rfl
@[simp] theorem State.ramWrite_frPos : (s.ramWrite a v).frPos = s.frPos := rfl
@[simp] theorem State.ramWrite_frLen : (s.ramWrite a v).frLen = s.frLen := rfl
@[simp] theorem State.ramWrite_frBase : (s.ramWrite a v).frBase = s.frBase := rfl
@[simp] theorem State.ramWrite_frSum : (s.ramWrite a v).frSum = s.frSum := rfl
@[simp] theorem State.ramWrite_frCend : (s.ramWrite a v).frCend = s.frCend := rfl
@[simp] theorem State.ramWrite_dfMbuf : (s.ramWrite a v).dfMbuf = s.dfMbuf := rfl
@[simp] theorem State.ramWrite_ram : (s.ramWrite a v).ram = Memory.store s.ram a v := rfl
@[simp] theorem State.ramWrite_inputs : (s.ramWrite a v).inputs = s.inputs := rfl
@[simp] theorem State.ramWrite_rspValid : (s.ramWrite a v).rspValid = s.rspValid := rfl
@[simp] theorem State.ramWrite_rspRes : (s.ramWrite a v).rspRes = s.rspRes := rfl
@[simp] theorem State.ramWrite_rspErr : (s.ramWrite a v).rspErr = s.rspErr := rfl

end

/-! ## `State.mbufWrite` -/

section
variable (s : State) (i : Nat) (v : Byte)

@[simp] theorem State.mbufWrite_ctrlStrict : (s.mbufWrite i v).ctrlStrict = s.ctrlStrict := rfl
@[simp] theorem State.mbufWrite_abase : (s.mbufWrite i v).abase = s.abase := rfl
@[simp] theorem State.mbufWrite_ckacc : (s.mbufWrite i v).ckacc = s.ckacc := rfl
@[simp] theorem State.mbufWrite_dfPcnt : (s.mbufWrite i v).dfPcnt = s.dfPcnt := rfl
@[simp] theorem State.mbufWrite_dfRcnt : (s.mbufWrite i v).dfRcnt = s.dfRcnt := rfl
@[simp] theorem State.mbufWrite_dfMlen : (s.mbufWrite i v).dfMlen = s.dfMlen := rfl
@[simp] theorem State.mbufWrite_dfErr : (s.mbufWrite i v).dfErr = s.dfErr := rfl
@[simp] theorem State.mbufWrite_pOvf : (s.mbufWrite i v).pOvf = s.pOvf := rfl
@[simp] theorem State.mbufWrite_rOvf : (s.mbufWrite i v).rOvf = s.rOvf := rfl
@[simp] theorem State.mbufWrite_ckWarn : (s.mbufWrite i v).ckWarn = s.ckWarn := rfl
@[simp] theorem State.mbufWrite_frPhase : (s.mbufWrite i v).frPhase = s.frPhase := rfl
@[simp] theorem State.mbufWrite_frPos : (s.mbufWrite i v).frPos = s.frPos := rfl
@[simp] theorem State.mbufWrite_frLen : (s.mbufWrite i v).frLen = s.frLen := rfl
@[simp] theorem State.mbufWrite_frBase : (s.mbufWrite i v).frBase = s.frBase := rfl
@[simp] theorem State.mbufWrite_frSum : (s.mbufWrite i v).frSum = s.frSum := rfl
@[simp] theorem State.mbufWrite_frCend : (s.mbufWrite i v).frCend = s.frCend := rfl
@[simp] theorem State.mbufWrite_dfMbuf : (s.mbufWrite i v).dfMbuf = Memory.store s.dfMbuf i v := rfl
@[simp] theorem State.mbufWrite_ram : (s.mbufWrite i v).ram = s.ram := rfl
@[simp] theorem State.mbufWrite_inputs : (s.mbufWrite i v).inputs = s.inputs := rfl
@[simp] theorem State.mbufWrite_rspValid : (s.mbufWrite i v).rspValid = s.rspValid := rfl
@[simp] theorem State.mbufWrite_rspRes : (s.mbufWrite i v).rspRes = s.rspRes := rfl
@[simp] theorem State.mbufWrite_rspErr : (s.mbufWrite i v).rspErr = s.rspErr := rfl

end

/-! ## `State.emit` -/

section
variable (s : State) (out : Byte)

@[simp] theorem State.emit_ctrlStrict : (s.emit out).ctrlStrict = s.ctrlStrict := rfl
@[simp] theorem State.emit_abase : (s.emit out).abase = s.abase := rfl
@[simp] theorem State.emit_ckacc : (s.emit out).ckacc = s.ckacc := rfl
@[simp] theorem State.emit_dfPcnt : (s.emit out).dfPcnt = s.dfPcnt := rfl
@[simp] theorem State.emit_dfRcnt : (s.emit out).dfRcnt = s.dfRcnt := rfl
@[simp] theorem State.emit_dfMlen : (s.emit out).dfMlen = s.dfMlen := rfl
@[simp] theorem State.emit_dfErr : (s.emit out).dfErr = s.dfErr := rfl
@[simp] theorem State.emit_pOvf : (s.emit out).pOvf = s.pOvf := rfl
@[simp] theorem State.emit_rOvf : (s.emit out).rOvf = s.rOvf := rfl
@[simp] theorem State.emit_ckWarn : (s.emit out).ckWarn = s.ckWarn := rfl
@[simp] theorem State.emit_frPhase : (s.emit out).frPhase = s.frPhase := rfl
@[simp] theorem State.emit_frPos : (s.emit out).frPos = s.frPos := rfl
@[simp] theorem State.emit_frLen : (s.emit out).frLen = s.frLen := rfl
@[simp] theorem State.emit_frBase : (s.emit out).frBase = s.frBase := rfl
@[simp] theorem State.emit_frSum : (s.emit out).frSum = s.frSum := rfl
@[simp] theorem State.emit_frCend : (s.emit out).frCend = s.frCend := rfl
@[simp] theorem State.emit_dfMbuf : (s.emit out).dfMbuf = s.dfMbuf := rfl
@[simp] theorem State.emit_ram : (s.emit out).ram = s.ram := rfl
@[simp] theorem State.emit_inputs : (s.emit out).inputs = s.inputs := rfl
@[simp] theorem State.emit_rspValid : (s.emit out).rspValid = true := rfl
@[simp] theorem State.emit_rspRes : (s.emit out).rspRes = 0x100#32 ||| out.setWidth 32 := rfl
@[simp] theorem State.emit_rspErr : (s.emit out).rspErr = .ok := rfl

end

/-! ## `State.emitSummed` -/

section
variable (s : State) (out : Byte)

@[simp] theorem State.emitSummed_ctrlStrict : (s.emitSummed out).ctrlStrict = s.ctrlStrict := rfl
@[simp] theorem State.emitSummed_abase : (s.emitSummed out).abase = s.abase := rfl
@[simp] theorem State.emitSummed_ckacc : (s.emitSummed out).ckacc = s.ckacc := rfl
@[simp] theorem State.emitSummed_dfPcnt : (s.emitSummed out).dfPcnt = s.dfPcnt := rfl
@[simp] theorem State.emitSummed_dfRcnt : (s.emitSummed out).dfRcnt = s.dfRcnt := rfl
@[simp] theorem State.emitSummed_dfMlen : (s.emitSummed out).dfMlen = s.dfMlen := rfl
@[simp] theorem State.emitSummed_dfErr : (s.emitSummed out).dfErr = s.dfErr := rfl
@[simp] theorem State.emitSummed_pOvf : (s.emitSummed out).pOvf = s.pOvf := rfl
@[simp] theorem State.emitSummed_rOvf : (s.emitSummed out).rOvf = s.rOvf := rfl
@[simp] theorem State.emitSummed_ckWarn : (s.emitSummed out).ckWarn = s.ckWarn := rfl
@[simp] theorem State.emitSummed_frPhase : (s.emitSummed out).frPhase = s.frPhase := rfl
@[simp] theorem State.emitSummed_frPos : (s.emitSummed out).frPos = s.frPos := rfl
@[simp] theorem State.emitSummed_frLen : (s.emitSummed out).frLen = s.frLen := rfl
@[simp] theorem State.emitSummed_frBase : (s.emitSummed out).frBase = s.frBase := rfl
@[simp] theorem State.emitSummed_frSum : (s.emitSummed out).frSum = s.frSum + out := rfl
@[simp] theorem State.emitSummed_frCend : (s.emitSummed out).frCend = s.frCend := rfl
@[simp] theorem State.emitSummed_dfMbuf : (s.emitSummed out).dfMbuf = s.dfMbuf := rfl
@[simp] theorem State.emitSummed_ram : (s.emitSummed out).ram = s.ram := rfl
@[simp] theorem State.emitSummed_inputs : (s.emitSummed out).inputs = s.inputs := rfl
@[simp] theorem State.emitSummed_rspValid : (s.emitSummed out).rspValid = true := rfl
@[simp] theorem State.emitSummed_rspRes : (s.emitSummed out).rspRes = 0x100#32 ||| out.setWidth 32 := rfl
@[simp] theorem State.emitSummed_rspErr : (s.emitSummed out).rspErr = .ok := rfl

end

/-! ## `State.dfFail` -/

section
variable (s : State) (err : ErrorCode)

@[simp] theorem State.dfFail_ctrlStrict : (s.dfFail err).ctrlStrict = s.ctrlStrict := rfl
@[simp] theorem State.dfFail_abase : (s.dfFail err).abase = s.abase := rfl
@[simp] theorem State.dfFail_ckacc : (s.dfFail err).ckacc = s.ckacc := rfl
@[simp] theorem State.dfFail_dfPcnt : (s.dfFail err).dfPcnt = s.dfPcnt := rfl
@[simp] theorem State.dfFail_dfRcnt : (s.dfFail err).dfRcnt = s.dfRcnt := rfl
@[simp] theorem State.dfFail_dfMlen : (s.dfFail err).dfMlen = s.dfMlen := rfl
@[simp] theorem State.dfFail_dfErr : (s.dfFail err).dfErr = err := rfl
@[simp] theorem State.dfFail_pOvf : (s.dfFail err).pOvf = s.pOvf := rfl
@[simp] theorem State.dfFail_rOvf : (s.dfFail err).rOvf = s.rOvf := rfl
@[simp] theorem State.dfFail_ckWarn : (s.dfFail err).ckWarn = s.ckWarn := rfl
@[simp] theorem State.dfFail_frPhase : (s.dfFail err).frPhase = s.frPhase := rfl
@[simp] theorem State.dfFail_frPos : (s.dfFail err).frPos = s.frPos := rfl
@[simp] theorem State.dfFail_frLen : (s.dfFail err).frLen = s.frLen := rfl
@[simp] theorem State.dfFail_frBase : (s.dfFail err).frBase = s.frBase := rfl
@[simp] theorem State.dfFail_frSum : (s.dfFail err).frSum = s.frSum := rfl
@[simp] theorem State.dfFail_frCend : (s.dfFail err).frCend = s.frCend := rfl
@[simp] theorem State.dfFail_dfMbuf : (s.dfFail err).dfMbuf = s.dfMbuf := rfl
@[simp] theorem State.dfFail_ram : (s.dfFail err).ram = s.ram := rfl
@[simp] theorem State.dfFail_inputs : (s.dfFail err).inputs = s.inputs := rfl
@[simp] theorem State.dfFail_rspValid : (s.dfFail err).rspValid = true := rfl
@[simp] theorem State.dfFail_rspRes : (s.dfFail err).rspRes = 0#32 := rfl
@[simp] theorem State.dfFail_rspErr : (s.dfFail err).rspErr = err := rfl

end

/-! ## `State.applyReset` -/

section
variable (s : State)

@[simp] theorem State.applyReset_ctrlStrict : (s.applyReset).ctrlStrict = false := rfl
@[simp] theorem State.applyReset_abase : (s.applyReset).abase = 0 := rfl
@[simp] theorem State.applyReset_ckacc : (s.applyReset).ckacc = 0 := rfl
@[simp] theorem State.applyReset_dfPcnt : (s.applyReset).dfPcnt = 0 := rfl
@[simp] theorem State.applyReset_dfRcnt : (s.applyReset).dfRcnt = 0 := rfl
@[simp] theorem State.applyReset_dfMlen : (s.applyReset).dfMlen = 0 := rfl
@[simp] theorem State.applyReset_dfErr : (s.applyReset).dfErr = .ok := rfl
@[simp] theorem State.applyReset_pOvf : (s.applyReset).pOvf = false := rfl
@[simp] theorem State.applyReset_rOvf : (s.applyReset).rOvf = false := rfl
@[simp] theorem State.applyReset_ckWarn : (s.applyReset).ckWarn = false := rfl
@[simp] theorem State.applyReset_frPhase : (s.applyReset).frPhase = .idle := rfl
@[simp] theorem State.applyReset_frPos : (s.applyReset).frPos = 0 := rfl
@[simp] theorem State.applyReset_frLen : (s.applyReset).frLen = 0 := rfl
@[simp] theorem State.applyReset_frBase : (s.applyReset).frBase = 0 := rfl
@[simp] theorem State.applyReset_frSum : (s.applyReset).frSum = 0 := rfl
@[simp] theorem State.applyReset_frCend : (s.applyReset).frCend = 0 := rfl
@[simp] theorem State.applyReset_dfMbuf : (s.applyReset).dfMbuf = [] := rfl
@[simp] theorem State.applyReset_ram : (s.applyReset).ram = s.ram := rfl
@[simp] theorem State.applyReset_inputs : (s.applyReset).inputs = s.inputs := rfl
@[simp] theorem State.applyReset_rspValid : (s.applyReset).rspValid = false := rfl
@[simp] theorem State.applyReset_rspRes : (s.applyReset).rspRes = 0 := rfl
@[simp] theorem State.applyReset_rspErr : (s.applyReset).rspErr = .ok := rfl

end

/-! ## `State.present` -/

section
variable (s : State) (w : Word)

@[simp] theorem State.present_ctrlStrict : (s.present w).ctrlStrict = s.ctrlStrict := rfl
@[simp] theorem State.present_abase : (s.present w).abase = s.abase := rfl
@[simp] theorem State.present_ckacc : (s.present w).ckacc = s.ckacc := rfl
@[simp] theorem State.present_dfPcnt : (s.present w).dfPcnt = s.dfPcnt := rfl
@[simp] theorem State.present_dfRcnt : (s.present w).dfRcnt = s.dfRcnt := rfl
@[simp] theorem State.present_dfMlen : (s.present w).dfMlen = s.dfMlen := rfl
@[simp] theorem State.present_dfErr : (s.present w).dfErr = s.dfErr := rfl
@[simp] theorem State.present_pOvf : (s.present w).pOvf = s.pOvf := rfl
@[simp] theorem State.present_rOvf : (s.present w).rOvf = s.rOvf := rfl
@[simp] theorem State.present_ckWarn : (s.present w).ckWarn = s.ckWarn := rfl
@[simp] theorem State.present_frPhase : (s.present w).frPhase = s.frPhase := rfl
@[simp] theorem State.present_frPos : (s.present w).frPos = s.frPos := rfl
@[simp] theorem State.present_frLen : (s.present w).frLen = s.frLen := rfl
@[simp] theorem State.present_frBase : (s.present w).frBase = s.frBase := rfl
@[simp] theorem State.present_frSum : (s.present w).frSum = s.frSum := rfl
@[simp] theorem State.present_frCend : (s.present w).frCend = s.frCend := rfl
@[simp] theorem State.present_dfMbuf : (s.present w).dfMbuf = s.dfMbuf := rfl
@[simp] theorem State.present_ram : (s.present w).ram = s.ram := rfl
@[simp] theorem State.present_inputs : (s.present w).inputs = HostInput.command w :: s.inputs := rfl
@[simp] theorem State.present_rspValid : (s.present w).rspValid = s.rspValid := rfl
@[simp] theorem State.present_rspRes : (s.present w).rspRes = s.rspRes := rfl
@[simp] theorem State.present_rspErr : (s.present w).rspErr = s.rspErr := rfl

end

/-! ## Reads that an update leaves alone -/

section
variable (s : State) (res : Word) (err : ErrorCode) (a i : Nat) (v : Byte)

@[simp] theorem State.respond_ramRead : (s.respond res err).ramRead a = s.ramRead a := rfl
@[simp] theorem State.raise_ramRead : (s.raise err).ramRead a = s.ramRead a := rfl
@[simp] theorem State.mbufWrite_ramRead : (s.mbufWrite i v).ramRead a = s.ramRead a := rfl
@[simp] theorem State.emit_ramRead : (s.emit v).ramRead a = s.ramRead a := rfl
@[simp] theorem State.emitSummed_ramRead : (s.emitSummed v).ramRead a = s.ramRead a := rfl
@[simp] theorem State.dfFail_ramRead : (s.dfFail err).ramRead a = s.ramRead a := rfl
@[simp] theorem State.applyReset_ramRead : s.applyReset.ramRead a = s.ramRead a := rfl
@[simp] theorem State.respond_mbufRead : (s.respond res err).mbufRead i = s.mbufRead i := rfl
@[simp] theorem State.ramWrite_mbufRead : (s.ramWrite a v).mbufRead i = s.mbufRead i := rfl

end

end Sys2Proof.Machine
end

