-- ==== Sys2Proof/Laws/Memory.lean ====
section
/-! SUPPORT. The laws of a memory: what a write makes of every read, and that a write keeps the canonical
form and the bound on the addresses. -/

namespace Sys2Proof.Machine

theorem Memory.lookup_store (m : Memory) (k j : Nat) (v : Byte) :
    Memory.lookup (Memory.store m k v) j = if j = k then some v else Memory.lookup m j := by
  induction m with
  | nil => simp [Memory.store, Memory.lookup]
  | cons c rest ih =>
    obtain ⟨a, b⟩ := c
    by_cases h1 : k < a
    · simp [Memory.store, Memory.lookup, h1]
    · by_cases h2 : k = a
      · subst h2
        by_cases hj : j = k <;> simp [Memory.store, Memory.lookup, hj]
      · by_cases hj : j = a
        · subst hj
          have : j ≠ k := fun h => h2 h.symm
          simp [Memory.store, Memory.lookup, h1, h2, this]
        · simp [Memory.store, Memory.lookup, h1, h2, hj, ih]

@[simp] theorem Memory.lookup_store_same (m : Memory) (k : Nat) (v : Byte) :
    Memory.lookup (Memory.store m k v) k = some v := by
  simp [Memory.lookup_store]

theorem Memory.lookup_store_other (m : Memory) {k j : Nat} (v : Byte) (h : j ≠ k) :
    Memory.lookup (Memory.store m k v) j = Memory.lookup m j := by
  simp [Memory.lookup_store, h]

theorem Memory.wfFrom_store (m : Memory) (lo k : Nat) (v : Byte) (hk : lo ≤ k)
    (h : Memory.wfFrom lo m = true) : Memory.wfFrom lo (Memory.store m k v) = true := by
  induction m generalizing lo with
  | nil => simp [Memory.store, Memory.wfFrom, hk]
  | cons c rest ih =>
    obtain ⟨a, b⟩ := c
    simp only [Memory.wfFrom, Bool.and_eq_true, decide_eq_true_eq] at h
    by_cases h1 : k < a
    · simp [Memory.store, Memory.wfFrom, h1, hk, h.2, Nat.succ_le_of_lt h1]
    · by_cases h2 : k = a
      · subst h2
        simp [Memory.store, Memory.wfFrom, hk, h.2]
      · have hlt : a + 1 ≤ k := by omega
        simp [Memory.store, Memory.wfFrom, h1, h2, h.1, ih (a + 1) hlt h.2]

/-- A write keeps the canonical form. -/
theorem Memory.wf_store (m : Memory) (k : Nat) (v : Byte) (h : Memory.wf m = true) :
    Memory.wf (Memory.store m k v) = true :=
  Memory.wfFrom_store m 0 k v (Nat.zero_le k) h

/-- A write below a bound keeps every address below it. -/
theorem Memory.below_store (size : Nat) (m : Memory) (k : Nat) (v : Byte) (hk : k < size)
    (h : Memory.below size m = true) : Memory.below size (Memory.store m k v) = true := by
  induction m with
  | nil => simp [Memory.store, Memory.below, hk]
  | cons c rest ih =>
    obtain ⟨a, b⟩ := c
    simp only [Memory.below, List.all_cons, Bool.and_eq_true, decide_eq_true_eq] at h ih
    by_cases h1 : k < a
    · simpa [Memory.store, Memory.below, h1, hk] using h
    · by_cases h2 : k = a
      · subst h2
        simpa [Memory.store, Memory.below] using h
      · simpa [Memory.store, Memory.below, h1, h2, h.1] using ih h.2

theorem Memory.lookup_of_not_listed (m : Memory) (a : Nat) (h : ∀ c ∈ m, c.1 ≠ a) :
    Memory.lookup m a = none := by
  induction m with
  | nil => rfl
  | cons c rest ih =>
    obtain ⟨k, b⟩ := c
    have hk : a ≠ k := fun e => h (k, b) (by simp) e.symm
    simp [Memory.lookup, hk, ih fun c hc => h c (by simp [hc])]

/-! ## RAM and message buffer -/

theorem State.ramRead_ramWrite (s : State) (k a : Nat) (v : Byte) :
    (s.ramWrite k v).ramRead a = if a = k then v else s.ramRead a := by
  by_cases h : a = k <;> simp [State.ramRead, Memory.lookup_store, h]

@[simp] theorem State.ramRead_ramWrite_same (s : State) (k : Nat) (v : Byte) :
    (s.ramWrite k v).ramRead k = v := by
  simp [State.ramRead_ramWrite]

theorem State.ramRead_ramWrite_other (s : State) {k a : Nat} (v : Byte) (h : a ≠ k) :
    (s.ramWrite k v).ramRead a = s.ramRead a := by
  simp [State.ramRead_ramWrite, h]

theorem State.mbufRead_mbufWrite (s : State) (k i : Nat) (v : Byte) :
    (s.mbufWrite k v).mbufRead i = if i = k then v else s.mbufRead i := by
  by_cases h : i = k <;> simp [State.mbufRead, Memory.lookup_store, h]

@[simp] theorem State.mbufRead_mbufWrite_same (s : State) (k : Nat) (v : Byte) :
    (s.mbufWrite k v).mbufRead k = v := by
  simp [State.mbufRead_mbufWrite]

theorem State.mbufRead_mbufWrite_other (s : State) {k i : Nat} (v : Byte) (h : i ≠ k) :
    (s.mbufWrite k v).mbufRead i = s.mbufRead i := by
  simp [State.mbufRead_mbufWrite, h]

/-- Two states whose buffers read alike, and nothing else, have the same slices. -/
theorem State.mbufSlice_congr (s t : State) (lo n : Nat)
    (h : ∀ i, lo ≤ i → i < lo + n → t.mbufRead i = s.mbufRead i) :
    t.mbufSlice lo n = s.mbufSlice lo n := by
  unfold State.mbufSlice
  apply List.map_congr_left
  intro i hi
  rw [List.mem_range'_1] at hi
  exact h i hi.1 hi.2

@[simp] theorem State.mbufSlice_length (s : State) (lo n : Nat) :
    (s.mbufSlice lo n).length = n := by
  simp [State.mbufSlice]

end Sys2Proof.Machine
end

