-- ==== Sys2Proof/Laws/Ops.lean ====
section
/-! SUPPORT. What each shared operation of Machine/Ops.lean can do, said once. -/

namespace Sys2Proof.Machine

/-! ## Appending (46_deframer R228) -/

/-- Appending one byte either stores it at the end of its region and counts it, or sets the region's
overflow flag. -/
theorem State.appendByte_cases (s : State) (rev : Bool) (c : Byte) :
    (rev = true ∧ s.dfRcnt.toNat < 0x1780 ∧
      s.appendByte rev c =
        State.ramWrite { s with dfRcnt := s.dfRcnt + 1 } (0x7000 + s.dfRcnt.toNat) c)
    ∨ (rev = true ∧ 0x1780 ≤ s.dfRcnt.toNat ∧ s.appendByte rev c = { s with rOvf := true })
    ∨ (rev = false ∧ s.dfPcnt.toNat < 0x7000 ∧
      s.appendByte rev c = State.ramWrite { s with dfPcnt := s.dfPcnt + 1 } s.dfPcnt.toNat c)
    ∨ (rev = false ∧ 0x7000 ≤ s.dfPcnt.toNat ∧ s.appendByte rev c = { s with pOvf := true }) := by
  cases rev
  · by_cases h : s.dfPcnt.toNat < 0x7000
    · exact .inr (.inr (.inl ⟨rfl, h, by simp [State.appendByte, h]⟩))
    · exact .inr (.inr (.inr ⟨rfl, by omega, by simp [State.appendByte, h]⟩))
  · by_cases h : s.dfRcnt.toNat < 0x1780
    · exact .inl ⟨rfl, h, by simp [State.appendByte, h]⟩
    · exact .inr (.inl ⟨rfl, by omega, by simp [State.appendByte, h]⟩)

@[simp] theorem State.append_nil (s : State) (rev : Bool) : s.append rev [] = s := rfl

@[simp] theorem State.append_cons (s : State) (rev : Bool) (c : Byte) (cs : List Byte) :
    s.append rev (c :: cs) = (s.appendByte rev c).append rev cs := rfl

/-- A property of states that both writes of an append keep, an append keeps. -/
theorem State.append_induction {P : State → Prop} (rev : Bool)
    (step : ∀ s c, P s → P (s.appendByte rev c)) (cs : List Byte) (s : State) (h : P s) :
    P (s.append rev cs) := by
  induction cs generalizing s with
  | nil => exact h
  | cons c cs ih => exact ih _ (step s c h)

/-- Appending one byte writes RAM, the counts and the overflow flags, and nothing else. -/
theorem State.appendByte_frame (s : State) (rev : Bool) (c : Byte) :
    s.appendByte rev c =
      { s with
        ram := (s.appendByte rev c).ram
        dfPcnt := (s.appendByte rev c).dfPcnt
        dfRcnt := (s.appendByte rev c).dfRcnt
        pOvf := (s.appendByte rev c).pOvf
        rOvf := (s.appendByte rev c).rOvf } := by
  obtain ⟨-, -, h⟩ | ⟨-, -, h⟩ | ⟨-, -, h⟩ | ⟨-, -, h⟩ := s.appendByte_cases rev c <;>
    rw [h] <;> rfl

/-- Appending writes RAM, the counts and the overflow flags, and nothing else. -/
theorem State.append_frame (s : State) (rev : Bool) (cs : List Byte) :
    s.append rev cs =
      { s with
        ram := (s.append rev cs).ram
        dfPcnt := (s.append rev cs).dfPcnt
        dfRcnt := (s.append rev cs).dfRcnt
        pOvf := (s.append rev cs).pOvf
        rOvf := (s.append rev cs).rOvf } := by
  refine State.append_induction (P := fun u =>
    u = { s with ram := u.ram, dfPcnt := u.dfPcnt, dfRcnt := u.dfRcnt, pOvf := u.pOvf, rOvf := u.rOvf })
    rev (fun u c hu => ?_) cs s rfl
  have hv := u.appendByte_frame rev c
  generalize u.appendByte rev c = v at hv
  cases s
  cases u
  cases v
  simp only [State.mk.injEq] at hu hv ⊢
  simp_all

/-- The counts stay within their regions (10_state R29). -/
theorem State.append_counts_le (s : State) (rev : Bool) (cs : List Byte)
    (hp : s.dfPcnt.toNat ≤ 0x7000) (hr : s.dfRcnt.toNat ≤ 0x1780) :
    (s.append rev cs).dfPcnt.toNat ≤ 0x7000 ∧ (s.append rev cs).dfRcnt.toNat ≤ 0x1780 := by
  refine State.append_induction (P := fun s => s.dfPcnt.toNat ≤ 0x7000 ∧ s.dfRcnt.toNat ≤ 0x1780)
    rev (fun s c h => ?_) cs s ⟨hp, hr⟩
  obtain ⟨-, hlt, e⟩ | ⟨-, -, e⟩ | ⟨-, hlt, e⟩ | ⟨-, -, e⟩ := s.appendByte_cases rev c <;> rw [e]
  · refine ⟨h.1, ?_⟩
    show (s.dfRcnt + 1).toNat ≤ _
    rw [BitVec.toNat_add, show BitVec.toNat (1 : BitVec 13) = 1 from rfl]
    omega
  · exact h
  · refine ⟨?_, h.2⟩
    show (s.dfPcnt + 1).toNat ≤ _
    rw [BitVec.toNat_add, show BitVec.toNat (1 : BitVec 15) = 1 from rfl]
    omega
  · exact h

/-- An append keeps the canonical form of RAM and its bound. -/
theorem State.append_ram (s : State) (rev : Bool) (cs : List Byte) (hw : Memory.wf s.ram = true)
    (hb : Memory.below 0x8780 s.ram = true) :
    Memory.wf (s.append rev cs).ram = true ∧ Memory.below 0x8780 (s.append rev cs).ram = true := by
  refine State.append_induction
    (P := fun s => Memory.wf s.ram = true ∧ Memory.below 0x8780 s.ram = true)
    rev (fun s c h => ?_) cs s ⟨hw, hb⟩
  obtain ⟨-, hlt, e⟩ | ⟨-, -, e⟩ | ⟨-, hlt, e⟩ | ⟨-, -, e⟩ := s.appendByte_cases rev c <;> rw [e]
  · exact ⟨Memory.wf_store _ _ _ h.1, Memory.below_store _ _ _ _ (by omega) h.2⟩
  · exact h
  · exact ⟨Memory.wf_store _ _ _ h.1, Memory.below_store _ _ _ _ (by omega) h.2⟩
  · exact h

/-! ## Completing a message (46_deframer R221) -/

/-- Accepting a message appends its content and answers its result word. -/
theorem State.acceptMessage_eq (s : State) (n : Nat) :
    s.acceptMessage n =
      (s.append (isReverb (s.mbufRead 5) (s.mbufRead 6)) (s.mbufSlice 8 n)).respond
        (messageResult n (isReverb (s.mbufRead 5) (s.mbufRead 6))) .ok := rfl

/-- A completed message fails by one of the three checks, in the rule's order, or is accepted, with
CK_WARN set where a mismatch is let pass. -/
theorem State.completeMessage_cases (s : State) (len : Nat) :
    (len < 10 ∧ s.completeMessage len = s.dfFail .frameShort)
    ∨ (10 ≤ len ∧ s.mbufSlice 0 5 ≠ Config.header ∧ s.completeMessage len = s.dfFail .header)
    ∨ (10 ≤ len ∧ s.mbufSlice 0 5 = Config.header
        ∧ checksum (sumBytes (s.mbufSlice 5 (len - 7))) ≠ s.mbufRead (len - 2)
        ∧ s.ctrlStrict = true ∧ s.completeMessage len = s.dfFail .cksum)
    ∨ (10 ≤ len ∧ s.mbufSlice 0 5 = Config.header
        ∧ checksum (sumBytes (s.mbufSlice 5 (len - 7))) ≠ s.mbufRead (len - 2)
        ∧ s.ctrlStrict = false
        ∧ s.completeMessage len = State.acceptMessage { s with ckWarn := true } (len - 10))
    ∨ (10 ≤ len ∧ s.mbufSlice 0 5 = Config.header
        ∧ checksum (sumBytes (s.mbufSlice 5 (len - 7))) = s.mbufRead (len - 2)
        ∧ s.completeMessage len = s.acceptMessage (len - 10)) := by
  by_cases h1 : len < 10
  · exact .inl ⟨h1, by simp [State.completeMessage, h1]⟩
  · have h1' : 10 ≤ len := by omega
    by_cases h2 : s.mbufSlice 0 5 = Config.header
    · by_cases h3 : checksum (sumBytes (s.mbufSlice 5 (len - 7))) = s.mbufRead (len - 2)
      · exact .inr (.inr (.inr (.inr ⟨h1', h2, h3, by simp [State.completeMessage, h1, h2, h3]⟩)))
      · cases h4 : s.ctrlStrict
        · exact .inr (.inr (.inr (.inl
            ⟨h1', h2, h3, rfl, by simp [State.completeMessage, h1, h2, h3, h4]⟩)))
        · exact .inr (.inr (.inl
            ⟨h1', h2, h3, rfl, by simp [State.completeMessage, h1, h2, h3, h4]⟩))
    · exact .inr (.inl ⟨h1', h2, by simp [State.completeMessage, h1, h2]⟩)

/-! ## Byte functions -/

@[simp] theorem sumBytes_nil : sumBytes [] = 0#8 := rfl

@[simp] theorem sumBytes_cons (b : Byte) (bs : List Byte) :
    sumBytes (b :: bs) = b + sumBytes bs := rfl

theorem sumBytes_append (xs ys : List Byte) :
    sumBytes (xs ++ ys) = sumBytes xs + sumBytes ys := by
  induction xs with
  | nil => simp
  | cons x xs ih => simp [ih, BitVec.add_assoc]

/-! ## The command port -/

/-- One host entry is a reset, a command that is not well-formed, one command, or nothing. -/
theorem runInput_cases (x : HostInput) (s : State) :
    (x.rst = true ∧ runInput x s = .next s.applyReset)
    ∨ (x.accepted = true ∧ (∃ e, decode x.cmd = .error e) ∧ runInput x s = .next (s.raise .illegal))
    ∨ (x.accepted = true ∧ ∃ i, decode x.cmd = .ok i ∧ runInput x s = exec i s)
    ∨ (x.rst = false ∧ x.cmdValid = false ∧ runInput x s = .next s) := by
  cases hr : x.rst
  · cases hv : x.cmdValid
    · exact .inr (.inr (.inr ⟨rfl, rfl, by simp [runInput, hr, hv]⟩))
    · cases hd : decode x.cmd with
      | error e =>
        exact .inr (.inl ⟨by simp [HostInput.accepted, hr, hv], ⟨e, rfl⟩,
          by simp [runInput, runCommand, hr, hv, hd]⟩)
      | ok i =>
        exact .inr (.inr (.inl ⟨by simp [HostInput.accepted, hr, hv], i, rfl,
          by simp [runInput, runCommand, hr, hv, hd]⟩))
  · exact .inl ⟨rfl, by simp [runInput, hr]⟩

end Sys2Proof.Machine
end

