-- ==== Sys2Proof/Laws/Meanings.lean ====
section
/-! SUPPORT. What the commands with many cases can do, said once: FRPOP, DFPUSH, DFEND. -/

namespace Sys2Proof.Machine

theorem eox_eq : Config.eox = 247#8 := rfl

/-- FRPOP writes framer registers and the response only, or stops past the RAM (45_framer R191, R197). -/
theorem execFrpop_cases (s : State) :
    (∃ t, execFrpop s = .next t ∧
      t = { s with
        frPhase := t.frPhase
        frSum := t.frSum
        frPos := t.frPos
        frCend := t.frCend
        rspValid := true
        rspRes := t.rspRes
        rspErr := .ok })
    ∨ (s.frPhase = .data ∧ 0x8780 ≤ s.frPos.toNat
        ∧ execFrpop s = .fault (.noSuchRamByte s.frPos.toNat)) := by
  unfold execFrpop
  split
  all_goals first | exact .inl ⟨_, rfl, rfl⟩ | skip
  rename_i hp
  by_cases h : s.frPos.toNat < 0x8780
  · simp only [Config.ramSize, h, if_true]
    exact .inl ⟨_, rfl, rfl⟩
  · exact .inr ⟨hp, by omega, by simp [h]⟩

/-- DFPUSH answers the sticky error, is FRAME_LONG, stops past the buffer, buffers a byte, or completes
a message (46_deframer R221). -/
theorem execDfpush_cases (s : State) (b : Byte) :
    (s.dfErr ≠ .ok ∧ execDfpush b s = .next (s.raise s.dfErr))
    ∨ (s.dfErr = .ok ∧ b ≠ 247#8 ∧ s.dfMlen.toNat = 265
        ∧ execDfpush b s = .next (s.dfFail .frameLong))
    ∨ (s.dfErr = .ok ∧ 266 ≤ s.dfMlen.toNat
        ∧ execDfpush b s = .fault (.noSuchBufferByte s.dfMlen.toNat))
    ∨ (s.dfErr = .ok ∧ b ≠ 247#8 ∧ s.dfMlen.toNat < 265
        ∧ execDfpush b s = .next (State.respond
            (State.mbufWrite { s with dfMlen := s.dfMlen + 1 } s.dfMlen.toNat b) 0#32 .ok))
    ∨ (s.dfErr = .ok ∧ b = 247#8 ∧ s.dfMlen.toNat ≤ 265
        ∧ execDfpush b s = .next (State.completeMessage
            (State.mbufWrite { s with dfMlen := 0 } s.dfMlen.toNat b) (s.dfMlen.toNat + 1))) := by
  unfold execDfpush
  by_cases h1 : s.dfErr = .ok
  · by_cases h2 : b = 247#8
    · by_cases h3 : 266 ≤ s.dfMlen.toNat
      · exact .inr (.inr (.inl ⟨h1, h3, by simp [h1, h2, eox_eq, h3]⟩))
      · exact .inr (.inr (.inr (.inr ⟨h1, h2, by omega, by simp [h1, h2, eox_eq, h3]⟩)))
    · by_cases h4 : s.dfMlen.toNat = 265
      · exact .inr (.inl ⟨h1, h2, h4, by simp [h1, h2, eox_eq, h4]⟩)
      · by_cases h3 : 266 ≤ s.dfMlen.toNat
        · exact .inr (.inr (.inl ⟨h1, h3, by simp [h1, eox_eq, h3, h4]⟩))
        · exact .inr (.inr (.inr (.inl ⟨h1, h2, by omega, by simp [h1, h2, eox_eq, h3, h4]⟩)))
  · exact .inl ⟨h1, by simp [h1]⟩

/-- DFEND answers both counts and writes DF_ERR and the response only (46_deframer R230). -/
theorem execDfend_next (s : State) :
    ∃ e, execDfend s = .next (State.respond { s with dfErr := e } s.dfCounts e)
      ∧ (s.dfErr ≠ .ok → e = s.dfErr)
      ∧ (s.dfErr = .ok → e = .ok ∨ e = .trunc ∨ e = .size) := by
  unfold execDfend
  by_cases h1 : s.dfErr = .ok
  · by_cases h2 : s.dfMlen = 0
    · by_cases h3 : s.pOvf ∨ s.rOvf ∨ s.dfPcnt.toNat ≠ Config.pSize ∨ s.dfRcnt.toNat ≠ Config.rSize
      · exact ⟨.size, by rw [if_neg (by simp [h1]), if_neg (by simp [h2]), if_pos h3],
          fun h => absurd h1 h, fun _ => by simp⟩
      · refine ⟨.ok, ?_, fun h => absurd h1 h, fun _ => by simp⟩
        rw [if_neg (by simp [h1]), if_neg (by simp [h2]), if_neg h3, ← h1]
    · exact ⟨.trunc, by rw [if_neg (by simp [h1]), if_pos h2], fun h => absurd h1 h, fun _ => by simp⟩
  · exact ⟨s.dfErr, by rw [if_pos h1], fun _ => rfl, fun h => absurd h h1⟩

/-- Accepting a message leaves every register but the counts and the overflow flags. -/
theorem State.acceptMessage_frame (s : State) (n : Nat) :
    s.acceptMessage n =
      { s with
        ram := (s.acceptMessage n).ram
        dfPcnt := (s.acceptMessage n).dfPcnt
        dfRcnt := (s.acceptMessage n).dfRcnt
        pOvf := (s.acceptMessage n).pOvf
        rOvf := (s.acceptMessage n).rOvf
        rspValid := true
        rspRes := (s.acceptMessage n).rspRes
        rspErr := .ok } := by
  rw [State.acceptMessage_eq, State.append_frame]
  rfl

end Sys2Proof.Machine
end

