-- ==== Sys2Proof/Laws/PerInstr.lean ====
section
/-! SUPPORT. Facts about every command as syntax, one lemma per constructor. -/

namespace Sys2Proof.Laws.EncodedOpcode

/-- The word of a command carries the opcode of its mnemonic in bits 31:24 (30_encoding R71, R73). -/
def Statement (i : Instr) : Prop := fieldOpcode (encode i) = opcodeOf i.mnemonic

theorem nop : Statement .nop := fieldOpcode_wordZ _

theorem wctrl (b : Byte) : Statement (.wctrl b) := fieldOpcode_wordB _ _

theorem wbase (imm21 : BitVec 21) : Statement (.wbase imm21) := fieldOpcode_wordA _ _

theorem rreg (sel : Byte) : Statement (.rreg sel) := fieldOpcode_wordB _ _

theorem memwr (addr : BitVec 16) (d : Byte) : Statement (.memwr addr d) := fieldOpcode_wordM _ _ _

theorem memrd (addr : BitVec 16) : Statement (.memrd addr) := fieldOpcode_wordMR _ _

theorem ckclr : Statement .ckclr := fieldOpcode_wordZ _

theorem ckadd (b : Byte) : Statement (.ckadd b) := fieldOpcode_wordB _ _

theorem ckget : Statement .ckget := fieldOpcode_wordZ _

theorem ckvfy (b : Byte) : Statement (.ckvfy b) := fieldOpcode_wordB _ _

theorem aenc (imm21 : BitVec 21) : Statement (.aenc imm21) := fieldOpcode_wordA _ _

theorem adec (h m l : Byte) : Statement (.adec h m l) := fieldOpcode_wordT _ _ _ _

theorem ctoa (b : Byte) : Statement (.ctoa b) := fieldOpcode_wordB _ _

theorem ctoi (b : Byte) : Statement (.ctoi b) := fieldOpcode_wordB _ _

theorem frstart (len : BitVec 24) : Statement (.frstart len) := fieldOpcode_wordL _ _

theorem frpop : Statement .frpop := fieldOpcode_wordZ _

theorem dfstart : Statement .dfstart := fieldOpcode_wordZ _

theorem dfpush (b : Byte) : Statement (.dfpush b) := fieldOpcode_wordB _ _

theorem dfend : Statement .dfend := fieldOpcode_wordZ _

end Sys2Proof.Laws.EncodedOpcode
end

