-- ==== Sys2Proof/Tests/Slice0.lean ====
section
/-! SUPPORT. The model's own tests: the well-formedness checks, one decoded word per command, small steps
with results the spec's vectors give (95_test_vectors), and a witness for the hypotheses of each
statement that has some. -/

namespace Sys2Proof.Tests

open Sys2Proof Sys2Proof.Machine

/-! ## Well-formedness: each check refuses an ill-formed term (30_encoding R76) -/

theorem test_wellFormed_refuses_wctrl_2 : (Instr.wctrl 2).wellFormed = false := by decide
theorem test_wellFormed_refuses_wctrl_0x80 : (Instr.wctrl 0x80).wellFormed = false := by decide
theorem test_wellFormed_refuses_rreg_0x0D : (Instr.rreg 0x0D).wellFormed = false := by decide
theorem test_wellFormed_takes_wctrl_1 : (Instr.wctrl 1).wellFormed = true := by decide
theorem test_wellFormed_takes_rreg_0x0C : (Instr.rreg 0x0C).wellFormed = true := by decide

/-! ## Decoding: one word per command, written from the formats of 30_encoding R71 and R73 -/

/-- What the decoder reads from a word. -/
def read (w : Word) : Option Instr := (decode w).toOption

theorem test_decode_nop : read 0x00000000 = some (.nop) := by decide
theorem test_encode_nop : encode (.nop) = 0x00000000 := by decide
theorem test_decode_wctrl : read 0x01000001 = some (.wctrl 1) := by decide
theorem test_encode_wctrl : encode (.wctrl 1) = 0x01000001 := by decide
theorem test_decode_wbase : read 0x021FFFFF = some (.wbase 0x1FFFFF) := by decide
theorem test_encode_wbase : encode (.wbase 0x1FFFFF) = 0x021FFFFF := by decide
theorem test_decode_rreg : read 0x0300000C = some (.rreg 0x0C) := by decide
theorem test_encode_rreg : encode (.rreg 0x0C) = 0x0300000C := by decide
theorem test_decode_memwr : read 0x0870015A = some (.memwr 0x7001 0x5A) := by decide
theorem test_encode_memwr : encode (.memwr 0x7001 0x5A) = 0x0870015A := by decide
theorem test_decode_memrd : read 0x09877F00 = some (.memrd 0x877F) := by decide
theorem test_encode_memrd : encode (.memrd 0x877F) = 0x09877F00 := by decide
theorem test_decode_ckclr : read 0x10000000 = some (.ckclr) := by decide
theorem test_encode_ckclr : encode (.ckclr) = 0x10000000 := by decide
theorem test_decode_ckadd : read 0x110000BF = some (.ckadd 0xBF) := by decide
theorem test_encode_ckadd : encode (.ckadd 0xBF) = 0x110000BF := by decide
theorem test_decode_ckget : read 0x12000000 = some (.ckget) := by decide
theorem test_encode_ckget : encode (.ckget) = 0x12000000 := by decide
theorem test_decode_ckvfy : read 0x1300007B = some (.ckvfy 0x7B) := by decide
theorem test_encode_ckvfy : encode (.ckvfy 0x7B) = 0x1300007B := by decide
theorem test_decode_aenc : read 0x20107001 = some (.aenc 0x107001) := by decide
theorem test_encode_aenc : encode (.aenc 0x107001) = 0x20107001 := by decide
theorem test_decode_adec : read 0x21036005 = some (.adec 0x03 0x60 0x05) := by decide
theorem test_encode_adec : encode (.adec 0x03 0x60 0x05) = 0x21036005 := by decide
theorem test_decode_ctoa : read 0x3000003F = some (.ctoa 63) := by decide
theorem test_encode_ctoa : encode (.ctoa 63) = 0x3000003F := by decide
theorem test_decode_ctoi : read 0x3100007A = some (.ctoi 0x7A) := by decide
theorem test_encode_ctoi : encode (.ctoi 0x7A) = 0x3100007A := by decide
theorem test_decode_frstart : read 0x40808780 = some (.frstart 0x808780) := by decide
theorem test_encode_frstart : encode (.frstart 0x808780) = 0x40808780 := by decide
theorem test_decode_frpop : read 0x41000000 = some (.frpop) := by decide
theorem test_encode_frpop : encode (.frpop) = 0x41000000 := by decide
theorem test_decode_dfstart : read 0x48000000 = some (.dfstart) := by decide
theorem test_encode_dfstart : encode (.dfstart) = 0x48000000 := by decide
theorem test_decode_dfpush : read 0x490000F7 = some (.dfpush 0xF7) := by decide
theorem test_encode_dfpush : encode (.dfpush 0xF7) = 0x490000F7 := by decide
theorem test_decode_dfend : read 0x4A000000 = some (.dfend) := by decide
theorem test_encode_dfend : encode (.dfend) = 0x4A000000 := by decide

/-- 95_test_vectors section 11. -/
theorem test_decode_illegal_words :
    ([0x00000001, 0x01000002, 0x01000080, 0x0300000D, 0x030000FF, 0x02200000, 0x09000001, 0x11000100,
      0x12000001, 0x20E00000, 0x4A800000, 0x04000000, 0x0F000000, 0x14000000, 0x22000000, 0x32000000,
      0x42000000, 0x47000000, 0x4B000000, 0xFF000000] : List Word).all
        (fun w => (read w).isNone && !wellFormedWord w) = true := by decide

theorem test_decode_names_the_reason :
    decode 0x04000000 = .error (.reservedOpcode 0x04) ∧ decode 0x10000001 = .error (.reservedBitSet 0x10)
      ∧ decode 0x01000002 = .error (.controlOperand 2)
      ∧ decode 0x0300000D = .error (.registerSelector 0x0D) := ⟨rfl, rfl, rfl, rfl⟩

theorem test_decodeTableWord : decodeTableWord 32 0x0870005A = some (.memwr 0x7000 0x5A) := by decide

/-! ## One step: the host presents a word; the response and the fields read are those of the vectors -/

/-- The result word and the error number after one step with this word presented. -/
def answer (s : State) (w : Word) : Option (Word × BitVec 4) :=
  match step (s.present w) with
  | .next t => some (t.rspRes, t.rspErrPort)
  | .fault _ => none
  | .refused _ => none

/-- The state after one step with this word presented; the same state where the step stops. -/
def after (s : State) (w : Word) : State :=
  match step (s.present w) with
  | .next t => t
  | .fault _ => s
  | .refused _ => s

/-- The state after these words, one a step. -/
def afterAll (s : State) (ws : List Word) : State := ws.foldl after s

theorem test_nop : answer State.reset 0x00000000 = some (0, 0) := by decide
theorem test_illegal_word : answer State.reset 0x00000001 = some (0, 11) := by decide
theorem test_wctrl : (after State.reset 0x01000001).ctrlStrict = true := by decide
theorem test_wbase : (after State.reset 0x02008000).abase = 0x8000 := by decide
theorem test_rreg_abase :
    answer { State.reset with abase := 0x8000 } 0x03000001 = some (0x8000, 0) := by decide
theorem test_rreg_status :
    answer { State.reset with ckWarn := true, dfErr := .frameShort } 0x03000006 = some (0x45, 0) := by
  decide
theorem test_memwr_then_memrd :
    answer (after State.reset 0x0870005A) 0x09700000 = some (0x5A, 0) := by decide
theorem test_memwr_past_the_ram : answer State.reset 0x08878000 = some (0, 10) := by decide
theorem test_memrd_past_the_ram : answer State.reset 0x09FFFF00 = some (0, 10) := by decide
theorem test_memrd_unwritten :
    answer State.reset 0x09000000 = some ((Config.ramInit 0).setWidth 32, 0) := rfl
theorem test_ckclr : (after { State.reset with ckacc := 0x40 } 0x10000000).ckacc = 0 := by decide
theorem test_ckadd : answer { State.reset with ckacc := 0x40 } 0x1100007F = some (0xBF, 0) := by decide
theorem test_ckadd_wraps :
    answer { State.reset with ckacc := 0xFF } 0x11000001 = some (0, 0) := by decide
theorem test_ckget : answer { State.reset with ckacc := 0x05 } 0x12000000 = some (0x7B, 0) := by decide
theorem test_ckget_maps_0x80_to_0 :
    answer { State.reset with ckacc := 0x80 } 0x12000000 = some (0, 0) := by decide
theorem test_ckvfy : answer { State.reset with ckacc := 0x05 } 0x1300007B = some (1, 0) := by decide
theorem test_ckvfy_bit_7 :
    answer { State.reset with ckacc := 0x05 } 0x130000FB = some (0, 0) := by decide
theorem test_aenc :
    answer { State.reset with abase := 0x8000 } 0x20006F00 = some (0x00035E00, 0) := by decide
theorem test_aenc_wraps :
    answer { State.reset with abase := 0x1FFFFF } 0x20000001 = some (0, 0) := by decide
theorem test_adec : answer State.reset 0x21036000 = some (0xF000, 0) := by decide
theorem test_adec_out_of_range : answer State.reset 0x21008000 = some (0, 8) := by decide
theorem test_ctoa : answer State.reset 0x3000003E = some (0x30, 0) := by decide
theorem test_ctoa_out_of_range : answer State.reset 0x30000040 = some (0, 3) := by decide
theorem test_ctoi : answer State.reset 0x3100007A = some (52, 0) := by decide
theorem test_ctoi_unmappable : answer State.reset 0x31000040 = some (63, 0) := by decide
theorem test_frstart : answer State.reset 0x40000101 = some (0x115, 0) := by decide
theorem test_frstart_too_long : answer State.reset 0x40008781 = some (0, 9) := by decide

/-- V-FR-1: the state after FRSTART 2 over the image 01 02 from base 0x8000. -/
def framing : State := afterAll State.reset [0x02008000, 0x08000001, 0x08000102, 0x40000002]

theorem test_frpop_first_byte : answer framing 0x41000000 = some (0x1F0, 0) := by decide
theorem test_frpop_checksum :
    answer (afterAll framing (List.replicate 10 0x41000000)) 0x41000000 = some (0x17B, 0) := by decide

/-- The words that push these bytes. -/
def pushes (bs : List Byte) : List Word := (dfsend bs).map encode

/-- V-DF-2 up to its checksum byte. -/
def receiving : State :=
  afterAll State.reset (pushes [0xF0, 0x41, 0x00, 0x14, 0x12, 0x02, 0x00, 0x00, 0x01, 0x02, 0x7B])

theorem test_dfstart : (after { State.reset with dfErr := .size } 0x48000000).dfErr = .ok := by decide
theorem test_dfpush_completes : answer receiving 0x490000F7 = some (0x00020001, 0) := by decide
theorem test_dfpush_appends :
    (after receiving 0x490000F7).ram = [(0, 0x01), (1, 0x02)] := by decide
theorem test_dfpush_drops_past_the_region :
    (let t := after { receiving with dfPcnt := 0x6FFF } 0x490000F7
     (t.dfPcnt, t.pOvf, t.ram)) = (0x7000, true, [(0x6FFF, 0x01)]) := by decide
theorem test_dfend_size : answer State.reset 0x4A000000 = some (0, 2) := by decide
theorem test_dfend_ok :
    answer { State.reset with dfPcnt := 0x7000, dfRcnt := 0x1780 } 0x4A000000 = some (0x17807000, 0) := by
  decide
theorem test_reset_keeps_ram :
    (match step { (after State.reset 0x0870005A) with inputs := [HostInput.reset] } with
      | .next t => t.ram
      | .fault _ => []
      | .refused _ => []) = [(0x7000, 0x5A)] := by decide
theorem test_assemble_refuses : assemble .MEMRD [.number 0x10000] = none := by decide
theorem test_assemble_register :
    (assemble .RREG [.register .FR_PHASE]).map encode = some 0x03000007 := by decide
/-- The spec's expansions of 30_encoding R78, and lines 30_encoding R77 refuses. -/
theorem test_assemble_pseudo :
    (["CKSEQ 1, ' '", "MEMFILL 0xFFFF, 1, 2", "FRDRAIN 2", "CTOI ','", "CTOI 'ab'", "ADEC 1, 2",
      "FRDRAIN '!'", "FRDRAIN CTRL"].map
      fun l => assembleLine l.toList)
    = [some [.ckclr, .ckadd 1, .ckadd 0x20, .ckget], none, some [.frpop, .frpop], some [.ctoi 0x2C],
       none, none, some (List.replicate 0x21 .frpop), none] := by decide
theorem test_frame_example :
    frame (fun a => if a = 0 then 1 else 2) 2 0x8000
      = [0xF0, 0x41, 0x00, 0x14, 0x12, 0x02, 0x00, 0x00, 0x01, 0x02, 0x7B, 0xF7] := by decide

/-! ## Witnesses: a concrete case that meets the hypotheses of each statement, clause by clause -/

/-- A state in which the buffer holds these bytes. -/
def holding (bs : List Byte) : State :=
  { State.reset with
    dfMlen := BitVec.ofNat 9 bs.length
    dfMbuf := (List.range bs.length).zip bs }

/-- A header, the triple 02 00 00, the content 01 and its checksum. -/
def goodBytes : List Byte := [0xF0, 0x41, 0x00, 0x14, 0x12, 0x02, 0x00, 0x00, 0x01, 0x7D]

/-- The same with a wrong checksum. -/
def badSumBytes : List Byte := [0xF0, 0x41, 0x00, 0x14, 0x12, 0x02, 0x00, 0x00, 0x01, 0x7C]

/-- The same for the reverb region. -/
def reverbBytes : List Byte := [0xF0, 0x41, 0x00, 0x14, 0x12, 0x03, 0x60, 0x00, 0x01, 0x1C]

/-- A state in phase DATA at the last RAM byte. -/
def atLastByte : State :=
  { State.reset with frPhase := .data, frPos := 0x877F, frLen := 0x8780, frCend := 0x8780 }

/-- A state whose whole RAM was written with zeros. -/
def zeroBank : State :=
  { State.reset with abase := 0x8000, ram := (List.range 0x8780).map fun a => (a, 0) }

theorem witness_reset_asserted :
    ({ State.reset with inputs := [⟨true, true, 0x10000000⟩] } : State).inputs
      = [⟨true, true, 0x10000000⟩] ∧ (⟨true, true, 0x10000000⟩ : HostInput).rst = true := by decide

theorem witness_step_runs_decoded :
    (State.reset.present 0x10000000).inputs = [HostInput.command 0x10000000]
      ∧ decode 0x10000000 = .ok .ckclr
      ∧ (State.reset.present 0x01000002).inputs = [HostInput.command 0x01000002]
      ∧ wellFormedWord 0x01000002 = false := ⟨rfl, rfl, rfl, by decide⟩

theorem witness_illegal_and_legal_words :
    wellFormedWord 0x0300000D = false ∧ wellFormedWord 0x0300000C = true := by decide

theorem witness_no_command :
    State.reset.inputs = []
      ∧ ({ State.reset with inputs := [⟨false, false, 0⟩] } : State).inputs = [⟨false, false, 0⟩] := by
  decide

theorem witness_row_pair :
    ⟨.RREG, 0x03000000, 0xFFFFFF00⟩ ∈ opcodeTable ∧ (0x0300000C : Word) &&& 0xFFFFFF00 = 0x03000000
      ∧ rowCondition ⟨.RREG, 0x03000000, 0xFFFFFF00⟩ 0x0300000C :=
  ⟨by decide, by decide, fun _ => by decide⟩

/-- The ends of the reserved ranges. -/
theorem witness_reserved_opcodes :
    ([0x04, 0x07, 0x0A, 0x0F, 0x14, 0x1F, 0x22, 0x2F, 0x32, 0x3F, 0x42, 0x47, 0x4B, 0xFF] : List Nat).all
      (fun op => (BitVec.ofNat 32 (op * 2 ^ 24)).extractLsb' 24 8 == BitVec.ofNat 8 op) = true := by decide

theorem witness_assembled :
    assemble .MEMWR ([0xFFFF, 0xFF].map .number) = some (.memwr 0xFFFF 0xFF) := by decide

theorem witness_format_words :
    (0x10000000 : Word).extractLsb' 24 8 = 0x10#8 ∧ (0x1100007F : Word).extractLsb' 24 8 = 0x11#8
      ∧ (0x20007000 : Word).extractLsb' 24 8 = 0x20#8 ∧ (0x21036000 : Word).extractLsb' 24 8 = 0x21#8
      ∧ (0x0870005A : Word).extractLsb' 24 8 = 0x08#8 ∧ (0x09877F00 : Word).extractLsb' 24 8 = 0x09#8
      ∧ (0x40008780 : Word).extractLsb' 24 8 = 0x40#8 := by decide

theorem witness_wctrl_operands :
    (0 : Byte).toNat ≤ 1 ∧ (1 : Byte).toNat ≤ 1 ∧ 1 < (2 : Byte).toNat ∧ 1 < (0xFF : Byte).toNat := by
  decide

theorem witness_rreg_selectors :
    (0 : Byte).toNat ≤ 0x0C ∧ (0x0C : Byte).toNat ≤ 0x0C ∧ 0x0C < (0x0D : Byte).toNat := by decide

theorem witness_rreg_values : ([1, 2, 3, 4, 5, 6, 7, 8, 9, 10, 11, 12, 13] : List Nat)[(0x0C : Byte).toNat]?
    = some 13 := by decide

theorem witness_ram_offsets :
    (0x877F : BitVec 16).toNat < 0x8780 ∧ 0x8780 ≤ (0x8780 : BitVec 16).toNat := by decide

theorem witness_unwritten_byte : ∀ c ∈ State.reset.ram, c.1 ≠ 0x877F := by decide

theorem witness_written_byte_read_later :
    (∀ i ∈ [Instr.ckadd 1, .frpop, .dfend], i.mnemonic ≠ .MEMWR ∧ i.mnemonic ≠ .DFPUSH)
      ∧ (runInstrs ([.memwr 0x877F 0xF7] ++ [.ckadd 1, .frpop, .dfend] ++ [.memrd 0x877F])
          State.reset).isSome = true := by decide

theorem witness_checksum_permutation :
    ([0x80, 0x01] : List Byte).Perm [0x01, 0x80] ∧ (0x01 : Byte).toNat % 128 = (0x81 : Byte).toNat % 128 :=
  ⟨by decide, by decide⟩

theorem witness_triple_ends : (0x7F : Byte).toNat ≤ 0x7F ∧ 0x7F < (0x80 : Byte).toNat := by decide

theorem witness_table_codes :
    Config.charTable[(0 : Byte).toNat]? = some 0x20 ∧ Config.charTable[(63 : Byte).toNat]? = some 0x2D
      ∧ 64 ≤ (64 : Byte).toNat ∧ (63 : Byte).toNat < 64 := by decide

theorem witness_characters :
    Config.charTable[63]? = some (0x2D : Byte) ∧ (0x21 : Byte) ∉ Config.charTable := by decide

theorem witness_frpop_phases :
    ∀ p ∈ [FramerPhase.idle, .h0, .h1, .h2, .h3, .h4, .ah, .am, .al, .ck, .eox],
      ({ State.reset with frPhase := p } : State).frPhase = p := by decide

theorem witness_frpop_data : atLastByte.frPhase = .data ∧ atLastByte.frPos.toNat < 0x8780 := by decide

theorem witness_framing_lengths :
    (0 : BitVec 24).toNat ≤ 0x8780 ∧ (0x8780 : BitVec 24).toNat ≤ 0x8780
      ∧ 0x8780 < (0x8781 : BitVec 24).toNat := by decide

theorem witness_message_index : 0 < (1 + 255) / 256 ∧ 135 < (0x8780 + 255) / 256 := by decide

theorem witness_framer_next : ∃ t, exec .frpop framing = .next t := ⟨_, rfl⟩

theorem witness_boundary_offsets : 0x6FFF < 0x8780 ∧ 0x7000 < 0x8780 ∧ 0x877F < 0x8780 := by decide

theorem witness_sticky :
    ({ State.reset with dfErr := .trunc } : State).dfErr ≠ .ok
      ∧ (Instr.ckadd 1).mnemonic ≠ .DFSTART
      ∧ ∃ t, exec (.ckadd 1) { State.reset with dfErr := .trunc } = .next t :=
  ⟨by decide, by decide, _, rfl⟩

theorem witness_failing_push :
    ∃ t, exec (.dfpush 0xF7) State.reset = .next t ∧ t.rspErr ≠ .ok := ⟨_, rfl, by decide⟩

theorem witness_buffering :
    (holding goodBytes).dfErr = .ok ∧ (0x00 : Byte) ≠ 0xF7 ∧ (holding goodBytes).dfMlen.toNat < 265
      ∧ ({ State.reset with dfMlen := 264 } : State).dfMlen.toNat < 265 := by decide

theorem witness_short_and_long :
    (holding (goodBytes.take 8)).dfMlen.toNat + 1 < 10 ∧ (holding (goodBytes.take 8)).dfErr = .ok
      ∧ ({ State.reset with dfMlen := 265 } : State).dfMlen.toNat = 265 := by decide

theorem witness_bad_header :
    (holding (0x00 :: goodBytes)).dfErr = .ok ∧ 9 ≤ (holding (0x00 :: goodBytes)).dfMlen.toNat
      ∧ (holding (0x00 :: goodBytes)).dfMlen.toNat ≤ 265
      ∧ headerOf (pendingMessage (holding (0x00 :: goodBytes))) ≠ [0xF0, 0x41, 0x00, 0x14, 0x12] := by
  decide

/-- Both modes of STRICT. -/
theorem witness_bad_checksum (strict : Bool) :
    let s := { holding badSumBytes with ctrlStrict := strict }
    s.dfErr = .ok ∧ 9 ≤ s.dfMlen.toNat ∧ s.dfMlen.toNat ≤ 265 ∧ s.dfPcnt.toNat ≤ 0x7000
      ∧ s.dfRcnt.toNat ≤ 0x1780 ∧ headerOf (pendingMessage s) = [0xF0, 0x41, 0x00, 0x14, 0x12]
      ∧ ¬ checksumMatches (pendingMessage s) := by
  unfold checksumMatches
  cases strict <;> decide

/-- Both regions, an empty one and a full one (the clause about a dropped byte). -/
theorem witness_accepted :
    ∀ s ∈ [holding goodBytes, holding reverbBytes, { holding goodBytes with dfPcnt := 0x7000 },
        { holding reverbBytes with dfRcnt := 0x1780 }],
      s.dfErr = .ok ∧ 9 ≤ s.dfMlen.toNat ∧ s.dfMlen.toNat ≤ 265 ∧ s.dfPcnt.toNat ≤ 0x7000
        ∧ s.dfRcnt.toNat ≤ 0x1780 ∧ headerOf (pendingMessage s) = [0xF0, 0x41, 0x00, 0x14, 0x12]
        ∧ (pendingMessage s).getD ((pendingMessage s).length - 2) 0
            = checksum (sumBytes (bodyOf (pendingMessage s))) := by
  decide

theorem witness_accepted_checksum : checksumMatches (pendingMessage (holding goodBytes)) := by
  unfold checksumMatches
  decide

theorem witness_regions :
    ¬ reverbMessage (pendingMessage (holding goodBytes))
      ∧ reverbMessage (pendingMessage (holding reverbBytes)) := by
  unfold reverbMessage
  decide

theorem witness_result_word :
    ∃ t, exec (.dfpush 0xF7) (holding goodBytes) = .next t ∧ t.rspErr = .ok := ⟨_, rfl, rfl⟩

theorem witness_pushed_message :
    State.reset.dfErr = .ok ∧ State.reset.dfMlen = 0 ∧ (0x02 : Byte) ≠ 0xF7
      ∧ (0xF7 : Byte) ∉ ([0x01, 0x02] : List Byte) ∧ ([0x01, 0x02] : List Byte).length ≤ 256
      ∧ (0xF7 : Byte) ∉ List.replicate 256 (0x11 : Byte) := by decide

theorem lookup_of_all_equal (v : Byte) (m : Memory) (a : Nat) (hv : ∀ c ∈ m, c.2 = v)
    (ha : ∃ c ∈ m, c.1 = a) : Memory.lookup m a = some v := by
  induction m with
  | nil => simp at ha
  | cons c rest ih =>
    obtain ⟨k, b⟩ := c
    by_cases h : a = k
    · simpa [Memory.lookup, h] using hv (k, b) (by simp)
    · simp only [Memory.lookup, h, if_false]
      refine ih (fun c hc => hv c (by simp [hc])) ?_
      obtain ⟨c, hc, e⟩ := ha
      rcases List.mem_cons.mp hc with rfl | hc
      · exact absurd e.symm h
      · exact ⟨c, hc, e⟩

theorem lookup_zeros (n a : Nat) (ha : a < n) :
    Memory.lookup ((List.range n).map fun k => (k, (0 : Byte))) a = some 0 := by
  refine lookup_of_all_equal 0 _ a (fun c hc => ?_) ⟨(a, 0), ?_, rfl⟩
  · obtain ⟨k, -, rfl⟩ := List.mem_map.mp hc
    rfl
  · exact List.mem_map.mpr ⟨a, List.mem_range.mpr ha, rfl⟩

theorem witness_whole_bank :
    zeroBank.abase = 0x8000 ∧ ∀ a, a < 0x8780 → zeroBank.ramRead a ≠ 0xF7 := by
  refine ⟨rfl, fun a ha => ?_⟩
  unfold zeroBank State.ramRead
  rw [lookup_zeros 0x8780 a ha]
  simp

theorem witness_patch_memory :
    1 ≤ (0x7000 : BitVec 24).toNat ∧ (0x7000 : BitVec 24).toNat ≤ 0x7000
      ∧ ∀ a, a < (0x7000 : BitVec 24).toNat → zeroBank.ramRead a ≠ 0xF7 :=
  ⟨by decide, by decide, fun a ha => witness_whole_bank.2 a
    (Nat.lt_trans ha (by decide : (0x7000 : BitVec 24).toNat < 0x8780))⟩

theorem witness_commuting :
    ∃ t u, runInstrs [.frpop, .dfpush 0xF0] framing = some t
      ∧ runInstrs [.dfpush 0xF0, .frpop] framing = some u ∧ t.ram = framing.ram := ⟨_, _, rfl, rfl, rfl⟩

theorem witness_invariant : framing.Inv where
  pcnt_le := by decide
  rcnt_le := by decide
  mlen_le := by decide
  pos_le := by decide
  len_le := by decide
  framer := show _ ∧ _ by decide
  dfErr_code := by decide
  pOvf_full := by decide
  rOvf_full := by decide
  ram_wf := by decide
  ram_below := by decide
  mbuf_wf := by decide
  mbuf_below := by decide
  mbuf_held := fun i hi => absurd hi (by simp [show framing.dfMlen.toNat = 0 from by decide])

/-- The last offset of a framing not yet begun, one DFPUSH into it, and a pop after other commands.
The state's invariant is `witness_invariant`. -/
theorem witness_ram_read_time :
    framing.frPos.toNat ≤ (0 : BitVec 16).toNat ∧ framing.frPos.toNat ≤ (1 : BitVec 16).toNat
      ∧ (1 : BitVec 16).toNat < framing.frLen.toNat
      ∧ (∃ u, exec (.dfpush 0xF0) framing = .next u ∧ u.frPos.toNat = 0 ∧ u.frLen.toNat = 2)
      ∧ (runInstrs ([.ckadd 1] ++ frdrain 8 ++ [.wbase 0]) framing).map
          (fun t => (t.frPhase, t.frPos)) = some (.data, 0)
      ∧ 0 < atLastByte.frPos.toNat :=
  ⟨by decide, by decide, by decide, ⟨_, rfl, by decide, by decide⟩, by decide, by decide⟩

theorem witness_invariant_step : ∃ t, step (framing.present 0x41000000) = .next t := ⟨_, rfl⟩

theorem witness_reachable :
    ∃ s, Sys2Proof.core.run 2
      { State.reset with inputs := [HostInput.command 0x02008000, HostInput.reset] } = .next s :=
  ⟨_, rfl⟩

theorem witness_host_program :
    (∀ i ∈ [Instr.ckclr, .ckadd 5, .ckget], i.wellFormed = true) ∧ State.reset.inputs = []
      ∧ (runInstrs [.ckclr, .ckadd 5, .ckget] State.reset).isSome = true := by decide

theorem witness_stops :
    exec .frpop { State.reset with frPhase := .data, frPos := 0x8780 } = .fault (.noSuchRamByte 0x8780)
      ∧ exec (.dfpush 0) { State.reset with dfMlen := 266 } = .fault (.noSuchBufferByte 266) :=
  ⟨rfl, rfl⟩

/-- A command that writes, and one command of each kind that ends with an error. -/
theorem witness_written_and_errored :
    (∃ t, exec (.ckadd 1) State.reset = .next t ∧ t.ckacc ≠ State.reset.ckacc)
      ∧ (∃ t, exec (.memrd 0xFFFF) State.reset = .next t ∧ t.rspErr = .memRange)
      ∧ (∃ t, exec (.dfpush 0xF7) State.reset = .next t ∧ t.rspErr = .frameShort)
      ∧ (∃ t, exec .dfend State.reset = .next t ∧ t.rspErr = .size) :=
  ⟨⟨_, rfl, by decide⟩, ⟨_, rfl, rfl⟩, ⟨_, rfl, rfl⟩, ⟨_, rfl, rfl⟩⟩

theorem witness_same_below_length :
    sameBelowLength (holding goodBytes)
      { holding goodBytes with dfMbuf := Memory.store (holding goodBytes).dfMbuf 10 0x55 } :=
  ⟨rfl, by decide⟩

end Sys2Proof.Tests
end

/-! ## Commands that end with an error (00_scope R12, 60_exceptions R262) -/

namespace Sys2Proof.Machine

/-- If the outcome is a next state with an error, that state is the one before with the error raised:
result 0 and no register or memory written. -/
def FailsByRaise (s : State) (o : Host.Outcome State Fault Refusal) : Prop :=
  ∀ t, o = .next t → t.rspErr ≠ .ok → t = s.raise t.rspErr

theorem failsByRaise_next_ok {s t : State} (h : t.rspErr = .ok) : FailsByRaise s (.next t) := by
  rintro _ ⟨⟩ herr
  exact absurd h herr

theorem failsByRaise_next_raise (s : State) (e : ErrorCode) : FailsByRaise s (.next (s.raise e)) := by
  rintro _ ⟨⟩ -
  rfl

theorem failsByRaise_fault (s : State) (r : Fault) : FailsByRaise s (.fault r) :=
  fun _ h => nomatch h

theorem FailsByRaise.ite {s : State} {c : Prop} [Decidable c]
    {o o' : Host.Outcome State Fault Refusal} (h : FailsByRaise s o) (h' : FailsByRaise s o') :
    FailsByRaise s (if c then o else o') := by
  by_cases hc : c
  · rwa [if_pos hc]
  · rwa [if_neg hc]

theorem execRreg_failsByRaise (sel : Byte) (s : State) : FailsByRaise s (execRreg sel s) := by
  unfold execRreg
  cases s.readRegister sel with
  | some v => exact failsByRaise_next_ok rfl
  | none => exact failsByRaise_next_raise s _

theorem execCtoa_failsByRaise (b : Byte) (s : State) : FailsByRaise s (execCtoa b s) := by
  unfold execCtoa
  cases toAscii b with
  | some ch => exact failsByRaise_next_ok rfl
  | none => exact failsByRaise_next_raise s _

theorem execFrpop_failsByRaise (s : State) : FailsByRaise s (execFrpop s) := by
  obtain ⟨t, hnext, ht⟩ | ⟨-, -, hfault⟩ := execFrpop_cases s
  · rw [hnext]
    exact failsByRaise_next_ok (congrArg State.rspErr ht)
  · rw [hfault]
    exact failsByRaise_fault s _

/-- Only the deframer's DFPUSH and DFEND write state on an error: every other command that fails does
so by `State.raise` alone. -/
theorem exec_failsByRaise (i : Instr) (s : State) (hpush : i.mnemonic ≠ .DFPUSH)
    (hend : i.mnemonic ≠ .DFEND) : FailsByRaise s (exec i s) := by
  cases i with
  | nop | wbase | ckclr | ckadd | ckget | aenc | ctoi | dfstart => exact failsByRaise_next_ok rfl
  | wctrl => exact .ite (failsByRaise_next_ok rfl) (failsByRaise_next_raise s _)
  | rreg sel => exact execRreg_failsByRaise sel s
  | memwr | memrd => exact .ite (failsByRaise_next_raise s _) (failsByRaise_next_ok rfl)
  | ckvfy => exact .ite (failsByRaise_next_ok rfl) (failsByRaise_next_ok rfl)
  | adec => exact .ite (failsByRaise_next_ok rfl) (failsByRaise_next_raise s _)
  | ctoa b => exact execCtoa_failsByRaise b s
  | frstart => exact .ite (failsByRaise_next_raise s _) (failsByRaise_next_ok rfl)
  | frpop => exact execFrpop_failsByRaise s
  | dfpush => exact absurd rfl hpush
  | dfend => exact absurd rfl hend

theorem exec_error_eq_raise {i : Instr} {s t : State} (hexec : exec i s = .next t)
    (herr : t.rspErr ≠ .ok) (hpush : i.mnemonic ≠ .DFPUSH) (hend : i.mnemonic ≠ .DFEND) :
    t = s.raise t.rspErr :=
  exec_failsByRaise i s hpush hend t hexec herr

/-- A completed message that ends with an error was rejected by a check, before anything was appended
(46_deframer R221). -/
theorem State.completeMessage_error {s : State} {len : Nat}
    (h : (s.completeMessage len).rspErr ≠ .ok) :
    s.completeMessage len = s.dfFail (s.completeMessage len).rspErr := by
  obtain ⟨-, e⟩ | ⟨-, -, e⟩ | ⟨-, -, -, -, e⟩ | ⟨-, -, -, -, e⟩ | ⟨-, -, -, e⟩ :=
    s.completeMessage_cases len
  case inr.inr.inr.inl | inr.inr.inr.inr => exact absurd (congrArg State.rspErr e) h
  all_goals rw [e, State.dfFail_rspErr]

/-- A DFPUSH that ends with an error answers 0 and leaves the code in DF_ERR; besides, it writes only
DF_MLEN and the buffer, when 0xF7 completes a message (46_deframer R221, R224, R229). -/
theorem execDfpush_error {s t : State} {b : Byte} (hexec : execDfpush b s = .next t)
    (herr : t.rspErr ≠ .ok) :
    t = { s with
      dfErr := t.rspErr
      dfMlen := t.dfMlen
      dfMbuf := t.dfMbuf
      rspValid := true
      rspRes := 0
      rspErr := t.rspErr } := by
  obtain ⟨-, e⟩ | ⟨-, -, -, e⟩ | ⟨-, -, e⟩ | ⟨-, -, -, e⟩ | ⟨-, -, -, e⟩ := execDfpush_cases s b <;>
    rw [e] at hexec <;> cases hexec
  case inl => rfl
  case inr.inl => rfl
  case inr.inr.inr.inl => exact absurd rfl herr
  case inr.inr.inr.inr =>
    rw [State.completeMessage_error herr]
    rfl

/-- DFEND's result word is the two counts side by side, so their weighted sum (46_deframer R230). -/
theorem State.dfCounts_eq (s : State) :
    s.dfCounts = BitVec.ofNat 32 (s.dfRcnt.toNat * 65536 + s.dfPcnt.toNat) := by
  have hor : s.dfRcnt.toNat * 65536 ||| s.dfPcnt.toNat
      = s.dfRcnt.toNat * 65536 + s.dfPcnt.toNat := by
    rw [← Nat.shiftLeft_eq _ 16, Nat.shiftLeft_add_eq_or_of_lt (by omega)]
  apply BitVec.eq_of_toNat_eq
  simp only [State.dfCounts, BitVec.toNat_or, BitVec.toNat_shiftLeft, BitVec.toNat_setWidth,
    BitVec.toNat_ofNat, Nat.shiftLeft_eq, Nat.reducePow]
  rw [Nat.mod_eq_of_lt (a := s.dfRcnt.toNat) (by omega), Nat.mod_eq_of_lt (by omega),
    Nat.mod_eq_of_lt (a := s.dfPcnt.toNat) (by omega), hor, Nat.mod_eq_of_lt (by omega)]

/-- A DFEND answers both counts and leaves its code in DF_ERR, whichever the code is
(46_deframer R230). -/
theorem execDfend_next_counts {s t : State} (hexec : execDfend s = .next t) :
    t = { s with
      dfErr := t.rspErr
      rspValid := true
      rspRes := BitVec.ofNat 32 (s.dfRcnt.toNat * 65536 + s.dfPcnt.toNat)
      rspErr := t.rspErr } := by
  obtain ⟨e, hnext, -, -⟩ := execDfend_next s
  rw [hnext, State.dfCounts_eq] at hexec
  cases hexec
  rfl

/-- Settles O58: DFPUSH and DFEND by their own rules, every other command because it fails by
`State.raise`. -/
theorem errorsChangeOnlyWhatTheirRuleLists : Obligations.ErrorsChangeOnlyWhatTheirRuleLists := by
  intro i s t hexec herr
  cases i
  case dfpush b =>
    have ht := execDfpush_error hexec herr
    exact ⟨fun _ => congrArg State.rspRes ht, fun _ h => absurd rfl h, fun _ => ht, nofun⟩
  case dfend =>
    exact ⟨fun h => absurd rfl h, fun h => absurd rfl h, nofun, fun _ => execDfend_next_counts hexec⟩
  all_goals
    have ht := exec_error_eq_raise hexec herr nofun nofun
    exact ⟨fun _ => congrArg State.rspRes ht, fun _ _ => ht, nofun, nofun⟩

end Sys2Proof.Machine

/-! ## Bytes of DF_MBUF at DF_MLEN and above (10_state R28) -/

namespace Sys2Proof.Machine

/-- Two memories list the same byte, or none, at every address below `n`. -/
def Memory.AgreeBelow (n : Nat) (m m' : Memory) : Prop :=
  ∀ i, i < n → Memory.lookup m' i = Memory.lookup m i

/-- Writing the next byte to both extends the agreement over it. -/
theorem Memory.AgreeBelow.store {n : Nat} {m m' : Memory} (h : AgreeBelow n m m') (v : Byte) :
    AgreeBelow (n + 1) (Memory.store m n v) (Memory.store m' n v) := by
  intro i hi
  rw [Memory.lookup_store, Memory.lookup_store]
  by_cases hin : i = n
  · rw [if_pos hin, if_pos hin]
  · rw [if_neg hin, if_neg hin, h i (by omega)]

theorem Memory.AgreeBelow.mono {n k : Nat} {m m' : Memory} (h : AgreeBelow n m m') (hk : k ≤ n) :
    AgreeBelow k m m' :=
  fun i hi => h i (by omega)

/-- The state with other content in DF_MBUF. -/
def State.withMbuf (s : State) (m : Memory) : State := { s with dfMbuf := m }

theorem sameBelowLength_withMbuf {s : State} {m : Memory}
    (h : Memory.AgreeBelow s.dfMlen.toNat s.dfMbuf m) : sameBelowLength s (s.withMbuf m) :=
  ⟨rfl, h⟩

theorem State.withMbuf_mbufRead {n i : Nat} {s : State} {m : Memory}
    (h : Memory.AgreeBelow n s.dfMbuf m) (hi : i < n) :
    (s.withMbuf m).mbufRead i = s.mbufRead i :=
  congrArg (Option.getD · (Config.mbufInit i)) (h i hi)

theorem State.withMbuf_mbufSlice {n lo k : Nat} {s : State} {m : Memory}
    (h : Memory.AgreeBelow n s.dfMbuf m) (hle : lo + k ≤ n) :
    (s.withMbuf m).mbufSlice lo k = s.mbufSlice lo k :=
  State.mbufSlice_congr _ _ _ _ fun _ _ hi => State.withMbuf_mbufRead h (by omega)

/-! ### Completing a message reads only the message -/

theorem State.withMbuf_appendByte (s : State) (m : Memory) (rev : Bool) (c : Byte) :
    (s.withMbuf m).appendByte rev c = (s.appendByte rev c).withMbuf m := by
  unfold State.appendByte
  simp only [apply_ite (State.withMbuf · m)]
  rfl

theorem State.withMbuf_append (s : State) (m : Memory) (rev : Bool) (cs : List Byte) :
    (s.withMbuf m).append rev cs = (s.append rev cs).withMbuf m := by
  induction cs generalizing s with
  | nil => rfl
  | cons c cs ih => rw [State.append_cons, State.append_cons, State.withMbuf_appendByte, ih]

theorem State.withMbuf_acceptMessage {len n : Nat} {s : State} {m : Memory}
    (h : Memory.AgreeBelow len s.dfMbuf m) (hlen : 7 ≤ len) (hn : 8 + n ≤ len) :
    (s.withMbuf m).acceptMessage n = (s.acceptMessage n).withMbuf m := by
  rw [State.acceptMessage_eq, State.acceptMessage_eq, State.withMbuf_mbufRead h (by omega),
    State.withMbuf_mbufRead h (by omega), State.withMbuf_mbufSlice h hn, State.withMbuf_append]
  rfl

/-- The checks and the append of a message of `len` bytes read no index at or above `len`
(46_deframer R221). -/
theorem State.withMbuf_completeMessage {len : Nat} {s : State} {m : Memory}
    (h : Memory.AgreeBelow len s.dfMbuf m) :
    (s.withMbuf m).completeMessage len = (s.completeMessage len).withMbuf m := by
  by_cases hlen : len < Config.msgMin
  · unfold State.completeMessage
    rw [if_pos hlen, if_pos hlen]
    rfl
  · have hmin : 10 ≤ len := Nat.le_of_not_lt hlen
    have haccept : (s.withMbuf m).acceptMessage (len - 10)
        = (s.acceptMessage (len - 10)).withMbuf m :=
      State.withMbuf_acceptMessage h (by omega) (by omega)
    have hwarn : State.acceptMessage { s.withMbuf m with ckWarn := true } (len - 10)
        = (State.acceptMessage { s with ckWarn := true } (len - 10)).withMbuf m :=
      State.withMbuf_acceptMessage (s := { s with ckWarn := true }) h (by omega) (by omega)
    unfold State.completeMessage
    rw [haccept, hwarn, State.withMbuf_mbufSlice h (by omega), State.withMbuf_mbufSlice h (by omega),
      State.withMbuf_mbufRead h (by omega)]
    simp only [apply_ite (State.withMbuf · m)]
    rfl

@[simp] theorem State.completeMessage_dfMlen (s : State) (len : Nat) :
    (s.completeMessage len).dfMlen = s.dfMlen := by
  obtain ⟨-, e⟩ | ⟨-, -, e⟩ | ⟨-, -, -, -, e⟩ | ⟨-, -, -, -, e⟩ | ⟨-, -, -, e⟩ :=
    s.completeMessage_cases len <;> rw [e]
  case inr.inr.inr.inl | inr.inr.inr.inr => rw [State.acceptMessage_frame]
  all_goals rfl

/-! ### Outcomes alike below DF_MLEN -/

/-- If the first outcome is a next state, the second is one that differs from it only in DF_MBUF at
DF_MLEN and above. -/
def AlikeBelowLength (o o' : Host.Outcome State Fault Refusal) : Prop :=
  ∀ t, o = .next t → ∃ t', o' = .next t' ∧ sameBelowLength t t'

theorem alikeBelowLength_next {t t' : State} (h : sameBelowLength t t') :
    AlikeBelowLength (.next t) (.next t') := by
  rintro _ ⟨⟩
  exact ⟨t', rfl, h⟩

theorem alikeBelowLength_fault (r : Fault) (o : Host.Outcome State Fault Refusal) :
    AlikeBelowLength (.fault r) o :=
  fun _ h => nomatch h

theorem AlikeBelowLength.ite {c : Prop} [Decidable c]
    {o₁ o₂ o₁' o₂' : Host.Outcome State Fault Refusal}
    (h₁ : AlikeBelowLength o₁ o₁') (h₂ : AlikeBelowLength o₂ o₂') :
    AlikeBelowLength (if c then o₁ else o₂) (if c then o₁' else o₂') := by
  by_cases hc : c
  · rwa [if_pos hc, if_pos hc]
  · rwa [if_neg hc, if_neg hc]

section
variable {s : State} {m : Memory}

theorem alikeBelowLength_next_withMbuf {t : State} (h : Memory.AgreeBelow t.dfMlen.toNat t.dfMbuf m) :
    AlikeBelowLength (.next t) (.next (t.withMbuf m)) :=
  alikeBelowLength_next (sameBelowLength_withMbuf h)

theorem execRreg_alikeBelowLength (h : Memory.AgreeBelow s.dfMlen.toNat s.dfMbuf m) (sel : Byte) :
    AlikeBelowLength (execRreg sel s) (execRreg sel (s.withMbuf m)) := by
  have hread : (s.withMbuf m).readRegister sel = s.readRegister sel := rfl
  unfold execRreg
  rw [hread]
  cases s.readRegister sel with
  | some v => exact alikeBelowLength_next_withMbuf h
  | none => exact alikeBelowLength_next_withMbuf h

theorem execCtoa_alikeBelowLength (h : Memory.AgreeBelow s.dfMlen.toNat s.dfMbuf m) (b : Byte) :
    AlikeBelowLength (execCtoa b s) (execCtoa b (s.withMbuf m)) := by
  unfold execCtoa
  cases toAscii b with
  | some ch => exact alikeBelowLength_next_withMbuf h
  | none => exact alikeBelowLength_next_withMbuf h

theorem execFrpop_alikeBelowLength (h : Memory.AgreeBelow s.dfMlen.toNat s.dfMbuf m) :
    AlikeBelowLength (execFrpop s) (execFrpop (s.withMbuf m)) := by
  have hphase : (s.withMbuf m).frPhase = s.frPhase := rfl
  unfold execFrpop
  rw [hphase]
  cases s.frPhase
  case data => exact .ite (alikeBelowLength_next_withMbuf h) (alikeBelowLength_fault _ _)
  all_goals exact alikeBelowLength_next_withMbuf h

/-- Buffering a byte writes index DF_MLEN in both states before DF_MLEN passes it; completing a message
reads only below the terminator and leaves DF_MLEN at 0 (46_deframer R221). -/
theorem execDfpush_alikeBelowLength (h : Memory.AgreeBelow s.dfMlen.toNat s.dfMbuf m) (b : Byte) :
    AlikeBelowLength (execDfpush b s) (execDfpush b (s.withMbuf m)) := by
  have hstored := h.store b
  have hbuffered : Memory.AgreeBelow (s.dfMlen + 1).toNat (Memory.store s.dfMbuf s.dfMlen.toNat b)
      (Memory.store m s.dfMlen.toNat b) :=
    hstored.mono (Nat.mod_le _ _)
  have hcompleted := State.withMbuf_completeMessage
    (s := State.mbufWrite { s with dfMlen := 0 } s.dfMlen.toNat b) hstored
  refine .ite (alikeBelowLength_next_withMbuf h) (.ite (alikeBelowLength_next_withMbuf h)
    (.ite (alikeBelowLength_fault _ _) (.ite (alikeBelowLength_next_withMbuf hbuffered)
      (alikeBelowLength_next ?_))))
  refine hcompleted.symm ▸ sameBelowLength_withMbuf fun i hi => ?_
  rw [State.completeMessage_dfMlen] at hi
  exact absurd hi (Nat.not_lt_zero i)

/-- No command tells the two buffers apart: DFPUSH is the only one that reads DF_MBUF, and DF_MLEN
grows by DFPUSH only. -/
theorem exec_alikeBelowLength (i : Instr) (h : Memory.AgreeBelow s.dfMlen.toNat s.dfMbuf m) :
    AlikeBelowLength (exec i s) (exec i (s.withMbuf m)) := by
  have hnext {t : State} (hlen : t.dfMlen = s.dfMlen) (hbuf : t.dfMbuf = s.dfMbuf) :
      AlikeBelowLength (.next t) (.next (t.withMbuf m)) :=
    alikeBelowLength_next_withMbuf (by rwa [hlen, hbuf])
  cases i with
  | nop | wbase | ckclr | ckadd | ckget | aenc | ctoi => exact hnext rfl rfl
  | wctrl | memwr | memrd | ckvfy | adec | frstart => exact .ite (hnext rfl rfl) (hnext rfl rfl)
  | rreg sel => exact execRreg_alikeBelowLength h sel
  | ctoa b => exact execCtoa_alikeBelowLength h b
  | frpop => exact execFrpop_alikeBelowLength h
  | dfstart => exact alikeBelowLength_next_withMbuf fun i hi => absurd hi (Nat.not_lt_zero i)
  | dfpush b => exact execDfpush_alikeBelowLength h b
  | dfend =>
    exact .ite (hnext rfl rfl) (.ite (hnext rfl rfl) (.ite (hnext rfl rfl) (hnext rfl rfl)))

end

/-- Settles O60: the second state is the first with another buffer that agrees below DF_MLEN. -/
theorem bufferPastTheLengthIsUnobservable : Obligations.BufferPastTheLengthIsUnobservable := by
  rintro i s s' t ⟨heq, hagree⟩ hexec
  rw [heq]
  exact exec_alikeBelowLength i hagree t hexec

end Sys2Proof.Machine

/-! ## Match and mask against the decoder (30_encoding R74, R75, R76) -/

namespace Sys2Proof

/-- The mask of the `n` bits of a word from bit `lo` up. -/
def bitsMask (lo n : Nat) : Word := (BitVec.allOnes n).setWidth 32 <<< lo

/-- Masking with the opcode byte and a reserved field leaves just the opcode when the reserved field
is zero. -/
theorem and_masks_eq_opcodeBits_iff (w : Word) (op : Byte) {lo n : Nat} (hn : lo + n ≤ 24) :
    w &&& (bitsMask 24 8 ||| bitsMask lo n) = opcodeBits op ↔
      fieldOpcode w = op ∧ w.extractLsb' lo n = 0#n := by
  have hbit (i : Nat) : (w &&& (bitsMask 24 8 ||| bitsMask lo n)).getLsbD i =
      (w.getLsbD i && (decide (24 ≤ i ∧ i - 24 < 8) || decide (lo ≤ i ∧ i - lo < n))) := by
    simp only [bitsMask, BitVec.getLsbD_and, BitVec.getLsbD_or,
      getLsbD_placed 8 24 _ i (by omega), getLsbD_placed n lo _ i (by omega),
      BitVec.getLsbD_allOnes, Bool.decide_and]
  constructor
  · intro h
    constructor
    · apply BitVec.eq_of_getLsbD_eq
      intro i hi
      have hi' := hbit (24 + i)
      rw [h, getLsbD_opcodeBits] at hi'
      simpa [fieldOpcode, hi] using hi'.symm
    · apply BitVec.eq_of_getLsbD_eq
      intro i hi
      have hi' := hbit (lo + i)
      rw [h, getLsbD_opcodeBits] at hi'
      simpa [hi, show ¬ 24 ≤ lo + i by omega] using hi'.symm
  · rintro ⟨rfl, hzero⟩
    apply BitVec.eq_of_getLsbD_eq
    intro i hi
    rw [hbit, getLsbD_opcodeBits]
    by_cases hop : 24 ≤ i
    · simp [fieldOpcode, hop, show i - 24 < 8 by omega]
    · by_cases hres : lo ≤ i ∧ i - lo < n
      · have hw : w.getLsbD i = false := by
          simpa [hres] using congrArg (BitVec.getLsbD · (i - lo)) hzero
        simp [hop, hw]
      · simp [hop, hres]

/-! ### The rows of R74 -/

theorem opcodeTable_opcode {r : OpcodeRow} (hr : r ∈ opcodeTable) :
    fieldOpcode r.matchBits = opcodeOf r.mnemonic := by
  revert r
  decide

/-- The row of a command whose bits `lo` to `lo + n - 1` must be zero. -/
def reservedRow (m : Mnemonic) (lo n : Nat) : OpcodeRow :=
  ⟨m, opcodeBits (opcodeOf m), bitsMask 24 8 ||| bitsMask lo n⟩

theorem reservedRow_selects_iff {w : Word} {m : Mnemonic} {lo n : Nat} (hn : lo + n ≤ 24)
    (hop : fieldOpcode w = opcodeOf m) :
    (reservedRow m lo n).selects w = true ↔ w.extractLsb' lo n = 0#n := by
  unfold OpcodeRow.selects
  rw [beq_iff_eq]
  exact (and_masks_eq_opcodeBits_iff w _ hn).trans (and_iff_right hop)

/-- No two rows share an opcode. -/
theorem opcodeTable_eq_of_opcode : ∀ r ∈ opcodeTable, ∀ q ∈ opcodeTable,
    fieldOpcode r.matchBits = fieldOpcode q.matchBits → r = q := by
  decide

theorem opcodeOf_eq_wctrl_iff (m : Mnemonic) : opcodeOf m = 0x01#8 ↔ m = .WCTRL := by
  cases m <;> decide

theorem opcodeOf_eq_rreg_iff (m : Mnemonic) : opcodeOf m = 0x03#8 ↔ m = .RREG := by
  cases m <;> decide

/-- Opcodes tell the rows apart, so only the row of the word's own opcode can make it well formed. -/
theorem wellFormedWord_iff_row {w : Word} {r : OpcodeRow} (hr : r ∈ opcodeTable)
    (hop : fieldOpcode w = opcodeOf r.mnemonic) :
    wellFormedWord w = true ↔ r.selects w = true
      ∧ (r.mnemonic = .WCTRL → w.extractLsb' 1 7 = 0#7)
      ∧ (r.mnemonic = .RREG → (fieldB w).toNat ≤ 0x0C) := by
  have hmatch := (opcodeTable_opcode hr).trans hop.symm
  have honly : (∃ q ∈ opcodeTable, fieldOpcode q.matchBits = fieldOpcode w ∧ q.selects w = true) ↔
      r.selects w = true :=
    ⟨fun ⟨q, hq, hqop, hsel⟩ => opcodeTable_eq_of_opcode q hq r hr (hqop.trans hmatch.symm) ▸ hsel,
      fun hsel => ⟨r, hr, hmatch, hsel⟩⟩
  rw [← honly, ← opcodeOf_eq_wctrl_iff, ← opcodeOf_eq_rreg_iff, ← hop]
  simp only [wellFormedWord, List.any_eq_true, Bool.and_eq_true, Bool.or_eq_true, beq_iff_eq,
    bne_iff_ne, decide_eq_true_eq, ← imp_iff_not_or, and_assoc]
  constructor
  · rintro ⟨q, hq, hqop, hsel, hoperand⟩
    exact ⟨⟨q, hq, hqop, hsel⟩, hoperand⟩
  · rintro ⟨⟨q, hq, hqop, hsel⟩, hoperand⟩
    exact ⟨q, hq, hqop, hsel, hoperand⟩

theorem wellFormedWord_iff_reserved {w : Word} {m : Mnemonic} {lo n : Nat} (hn : lo + n ≤ 24)
    (hrow : reservedRow m lo n ∈ opcodeTable) (hop : fieldOpcode w = opcodeOf m)
    (hwctrl : m ≠ .WCTRL) (hrreg : m ≠ .RREG) :
    wellFormedWord w = true ↔ w.extractLsb' lo n = 0#n := by
  rw [wellFormedWord_iff_row hrow hop, reservedRow_selects_iff hn hop]
  exact and_iff_left ⟨fun h => absurd h hwctrl, fun h => absurd h hrreg⟩

/-- WCTRL's mask takes bits 7:1 with the reserved bits of its format. -/
theorem wellFormedWord_iff_wctrl {w : Word} (hop : fieldOpcode w = opcodeOf .WCTRL) :
    wellFormedWord w = true ↔ w.extractLsb' 8 16 = 0#16 ∧ wctrlOperandOk (fieldB w) = true := by
  have hrow : reservedRow .WCTRL 1 23 ∈ opcodeTable := by decide
  rw [wellFormedWord_iff_row hrow hop, reservedRow_selects_iff (by decide) hop]
  simp only [reservedRow, wctrlOperandOk, fieldB, decide_eq_true_eq, BitVec.toNat_eq,
    BitVec.extractLsb'_toNat, BitVec.toNat_ofNat, Nat.shiftRight_eq_div_pow]
  simp only [forall_const, reduceCtorEq, false_implies, and_true]
  omega

theorem wellFormedWord_iff_rreg {w : Word} (hop : fieldOpcode w = opcodeOf .RREG) :
    wellFormedWord w = true ↔ w.extractLsb' 8 16 = 0#16 ∧ rregSelectorOk (fieldB w) = true := by
  have hrow : reservedRow .RREG 8 16 ∈ opcodeTable := by decide
  rw [wellFormedWord_iff_row hrow hop, reservedRow_selects_iff (by decide) hop]
  simp [reservedRow, rregSelectorOk]

/-- A word whose opcode is in no row is not well formed. -/
theorem wellFormedWord_eq_false_of_opcode {w : Word} (hop : ∀ m, fieldOpcode w ≠ opcodeOf m) :
    wellFormedWord w = false := by
  refine List.any_eq_false.mpr fun r hr => ?_
  have hne : fieldOpcode r.matchBits ≠ fieldOpcode w := fun h =>
    hop r.mnemonic (h.symm.trans (opcodeTable_opcode hr))
  simp [hne]

/-! ### The decoder's answer -/

/-- What an answer of the decoder says about the word it is given: a command for a well-formed word,
an error for any other. -/
def AnswersWord (w : Word) : Except IllegalWord Instr → Prop
  | .ok i => wellFormedWord w = true ∧ i.wellFormed = true ∧ fieldOpcode w = opcodeOf i.mnemonic
  | .error _ => wellFormedWord w = false

theorem answersWord_ite {w : Word} {c : Prop} [Decidable c] {i : Instr} {e : IllegalWord}
    (hw : wellFormedWord w = true ↔ c) (hop : fieldOpcode w = opcodeOf i.mnemonic)
    (hi : c → i.wellFormed = true) : AnswersWord w (if c then .ok i else .error e) := by
  by_cases hc : c
  · rw [if_pos hc]
    exact ⟨hw.mpr hc, hi hc, hop⟩
  · rw [if_neg hc]
    exact Bool.eq_false_iff.mpr fun h => hc (hw.mp h)

theorem answersWord_formatB {w : Word} {mk : Byte → Instr} {ok : Byte → Bool}
    {reason : Byte → IllegalWord}
    (hw : wellFormedWord w = true ↔ w.extractLsb' 8 16 = 0#16 ∧ ok (fieldB w) = true)
    (hop : fieldOpcode w = opcodeOf (mk (fieldB w)).mnemonic)
    (hi : (mk (fieldB w)).wellFormed = ok (fieldB w)) :
    AnswersWord w (formatB w fun b => if ok b then .ok (mk b) else .error (reason b)) := by
  unfold formatB
  by_cases hz : w.extractLsb' 8 16 = 0#16
  · rw [if_pos hz]
    exact answersWord_ite (hw.trans (and_iff_right hz)) hop hi.trans
  · rw [if_neg hz]
    exact Bool.eq_false_iff.mpr fun h => hz (hw.mp h).1

/-- The formats with reserved bits, for the commands that restrict no operand. -/
theorem answersWord_reserved {w : Word} (m : Mnemonic) {lo n : Nat} {i : Instr} {e : IllegalWord}
    (hrow : reservedRow m lo n ∈ opcodeTable) (hop : fieldOpcode w = opcodeOf m)
    (hm : i.mnemonic = m) (hi : i.wellFormed = true) (hn : lo + n ≤ 24 := by decide)
    (hwctrl : m ≠ .WCTRL := by decide) (hrreg : m ≠ .RREG := by decide) :
    AnswersWord w (if w.extractLsb' lo n = 0#n then .ok i else .error e) :=
  answersWord_ite (wellFormedWord_iff_reserved hn hrow hop hwctrl hrreg) (hm ▸ hop) fun _ => hi

/-- Formats T, M and L reserve no bit: their mask is the opcode byte alone. -/
theorem answersWord_ok {w : Word} (m : Mnemonic) {i : Instr} (hrow : reservedRow m 0 0 ∈ opcodeTable)
    (hop : fieldOpcode w = opcodeOf m) (hm : i.mnemonic = m) (hi : i.wellFormed = true)
    (hwctrl : m ≠ .WCTRL := by decide) (hrreg : m ≠ .RREG := by decide) :
    AnswersWord w (.ok i) :=
  ⟨(wellFormedWord_iff_reserved (by decide) hrow hop hwctrl hrreg).mpr BitVec.of_length_zero,
    hi, hm ▸ hop⟩

/-- The decoder and the match-and-mask check of R76 agree on every word. -/
theorem decode_answersWord (w : Word) : AnswersWord w (decode w) := by
  unfold decode
  split
  next hop => exact answersWord_reserved .NOP (by decide) hop rfl rfl
  next hop => exact answersWord_formatB (mk := .wctrl) (wellFormedWord_iff_wctrl hop) hop rfl
  next hop => exact answersWord_reserved .WBASE (by decide) hop rfl rfl
  next hop => exact answersWord_formatB (mk := .rreg) (wellFormedWord_iff_rreg hop) hop rfl
  next hop => exact answersWord_ok .MEMWR (by decide) hop rfl rfl
  next hop => exact answersWord_reserved .MEMRD (by decide) hop rfl rfl
  next hop => exact answersWord_reserved .CKCLR (by decide) hop rfl rfl
  next hop => exact answersWord_reserved .CKADD (by decide) hop rfl rfl
  next hop => exact answersWord_reserved .CKGET (by decide) hop rfl rfl
  next hop => exact answersWord_reserved .CKVFY (by decide) hop rfl rfl
  next hop => exact answersWord_reserved .AENC (by decide) hop rfl rfl
  next hop => exact answersWord_ok .ADEC (by decide) hop rfl rfl
  next hop => exact answersWord_reserved .CTOA (by decide) hop rfl rfl
  next hop => exact answersWord_reserved .CTOI (by decide) hop rfl rfl
  next hop => exact answersWord_ok .FRSTART (by decide) hop rfl rfl
  next hop => exact answersWord_reserved .FRPOP (by decide) hop rfl rfl
  next hop => exact answersWord_reserved .DFSTART (by decide) hop rfl rfl
  next hop => exact answersWord_reserved .DFPUSH (by decide) hop rfl rfl
  next hop => exact answersWord_reserved .DFEND (by decide) hop rfl rfl
  next => exact wellFormedWord_eq_false_of_opcode fun m => by cases m <;> assumption

theorem decode_ok {w : Word} {i : Instr} (h : decode w = .ok i) :
    wellFormedWord w = true ∧ i.wellFormed = true ∧ fieldOpcode w = opcodeOf i.mnemonic :=
  show AnswersWord w (.ok i) from h ▸ decode_answersWord w

theorem decode_error {w : Word} {e : IllegalWord} (h : decode w = .error e) :
    wellFormedWord w = false :=
  show AnswersWord w (.error e) from h ▸ decode_answersWord w

/-- The reserved opcode ranges of R75. -/
def ReservedOpcode (op : Nat) : Prop :=
  0x04 ≤ op ∧ op ≤ 0x07 ∨ 0x0A ≤ op ∧ op ≤ 0x0F ∨ 0x14 ≤ op ∧ op ≤ 0x1F
    ∨ 0x22 ≤ op ∧ op ≤ 0x2F ∨ 0x32 ≤ op ∧ op ≤ 0x3F ∨ 0x42 ≤ op ∧ op ≤ 0x47 ∨ 0x4B ≤ op

theorem opcodeOf_not_reserved (m : Mnemonic) : ¬ ReservedOpcode (opcodeOf m).toNat := by
  unfold ReservedOpcode
  cases m <;> decide

end Sys2Proof

/-! ## Illegal words on the command port -/

namespace Sys2Proof.Machine

theorem runCommand_ok {w : Word} {i : Instr} (h : decode w = .ok i) (s : State) :
    runCommand w s = exec i s := by
  unfold runCommand
  rw [h]

theorem runCommand_error {w : Word} {e : IllegalWord} (h : decode w = .error e) (s : State) :
    runCommand w s = .next (illegalAnswer s) := by
  unfold runCommand
  rw [h]
  rfl

/-- Settles O4: the match-and-mask check accepts exactly the words that decode. -/
theorem illegalWordsAnswerIllegal : Obligations.IllegalWordsAnswerIllegal := by
  intro w s
  cases hdec : decode w with
  | ok i =>
    obtain ⟨hword, hi, -⟩ := decode_ok hdec
    exact ⟨fun hbad => absurd (hword.symm.trans hbad) nofun,
      fun _ => ⟨i, rfl, hi, runCommand_ok hdec s⟩⟩
  | error e =>
    exact ⟨fun _ => runCommand_error hdec s,
      fun hword => absurd (hword.symm.trans (decode_error hdec)) nofun⟩

/-- Settles O9: a word that decodes has a command's opcode, and none of those is in a reserved
range. -/
theorem reservedOpcodesAreIllegal : Obligations.ReservedOpcodesAreIllegal := by
  intro w s
  cases hdec : decode w with
  | ok i =>
    obtain ⟨-, -, hop⟩ := decode_ok hdec
    refine ⟨fun hres => absurd ?_ (opcodeOf_not_reserved i.mnemonic), .inl ⟨i, rfl⟩⟩
    rw [← hop]
    exact hres
  | error e =>
    have hillegal := runCommand_error hdec s
    exact ⟨fun _ => hillegal, .inr hillegal⟩

end Sys2Proof.Machine

/-! ## The words of a format on the command port (30_encoding R71, R76) -/

namespace Sys2Proof.Machine

/-- A word whose decoding turns on one condition runs its command or answers ILLEGAL by that
condition. -/
theorem runCommand_of_decode_ite {w : Word} {c : Prop} [Decidable c] {i : Instr} {e : IllegalWord}
    (h : decode w = if c then .ok i else .error e) (s : State) :
    runCommand w s = if c then exec i s else .next (illegalAnswer s) := by
  by_cases hc : c
  · rw [if_pos hc] at h ⊢
    exact runCommand_ok h s
  · rw [if_neg hc] at h ⊢
    exact runCommand_error h s

theorem wordsZ_of_decode {op : Byte} {i : Instr}
    (h : ∀ w, fieldOpcode w = op → decode w = formatZ w i) : wordsZ op i :=
  fun w s hop => runCommand_of_decode_ite (h w hop) s

theorem wordsA_of_decode {op : Byte} {mk : BitVec 21 → Instr}
    (h : ∀ w, fieldOpcode w = op → decode w = formatA w mk) : wordsA op mk :=
  fun w s hop => runCommand_of_decode_ite (h w hop) s

/-- A format-B opcode whose operand is checked: where the decoder refuses an operand, the command's own
meaning refuses it too, so the words still follow the format. -/
theorem wordsB_of_decode {op : Byte} {mk : Byte → Instr} {ok : Byte → Bool}
    {reason : Byte → IllegalWord}
    (h : ∀ w, fieldOpcode w = op →
      decode w = formatB w fun b => if ok b then .ok (mk b) else .error (reason b))
    (hrefused : ∀ b s, ok b = false → exec (mk b) s = .next (illegalAnswer s)) :
    wordsB op mk := by
  intro w s hop
  by_cases hz : w.extractLsb' 8 16 = 0
  · refine Eq.trans ?_ (if_pos hz).symm
    have hrun := runCommand_of_decode_ite ((h w hop).trans (if_pos hz)) s
    cases hok : ok (fieldB w) with
    | true => rwa [if_pos hok] at hrun
    | false =>
      rw [if_neg (Bool.eq_false_iff.mp hok)] at hrun
      exact hrun.trans (hrefused _ s hok).symm
  · exact (runCommand_error ((h w hop).trans (if_neg hz)) s).trans (if_neg hz).symm

end Sys2Proof.Machine

/-! ## Control and register access (40_control R100 to R103) -/

namespace Sys2Proof

theorem decode_nop_opcode {w : Word} (hop : fieldOpcode w = 0x00#8) : decode w = formatZ w .nop := by
  simp only [decode, hop]

theorem decode_wctrl_opcode {w : Word} (hop : fieldOpcode w = 0x01#8) :
    decode w = formatB w decodeControl := by
  simp only [decode, hop]

theorem decode_wbase_opcode {w : Word} (hop : fieldOpcode w = 0x02#8) :
    decode w = formatA w .wbase := by
  simp only [decode, hop]

theorem decode_rreg_opcode {w : Word} (hop : fieldOpcode w = 0x03#8) :
    decode w = formatB w decodeSelector := by
  simp only [decode, hop]

end Sys2Proof

namespace Sys2Proof.Machine

/-! ### WCTRL -/

theorem exec_wctrl_of_le_one {b : Byte} (hb : b.toNat ≤ 1) (s : State) :
    exec (.wctrl b) s =
      .next (State.respond { s with ctrlStrict := decide (b.toNat = 1) } 0#32 .ok) := by
  have hok : wctrlOperandOk b = true := decide_eq_true hb
  have hbit : b.getLsbD 0 = decide (b.toNat = 1) := by
    rw [← BitVec.testBit_toNat, Nat.testBit_zero, Nat.mod_eq_of_lt (by omega)]
  rw [← hbit]
  exact if_pos hok

theorem exec_wctrl_of_refused {b : Byte} (hb : wctrlOperandOk b = false) (s : State) :
    exec (.wctrl b) s = .next (illegalAnswer s) :=
  if_neg (Bool.eq_false_iff.mp hb)

/-! ### RREG -/

theorem exec_rreg_of_some {s : State} {sel : Byte} {v : Word} (h : s.readRegister sel = some v) :
    exec (.rreg sel) s = .next (s.respond v .ok) := by
  show execRreg sel s = _
  unfold execRreg
  rw [h]

theorem exec_rreg_of_none {s : State} {sel : Byte} (h : s.readRegister sel = none) :
    exec (.rreg sel) s = .next (illegalAnswer s) := by
  show execRreg sel s = _
  unfold execRreg
  rw [h]
  rfl

/-- The bits of an appended vector do not overlap, so its number is the weighted sum of the parts. -/
theorem toNat_append_eq_add {m n : Nat} (x : BitVec m) (y : BitVec n) :
    (x ++ y).toNat = 2 ^ n * x.toNat + y.toNat := by
  rw [BitVec.toNat_append, ← Nat.shiftLeft_add_eq_or_of_lt y.isLt, Nat.shiftLeft_eq, Nat.mul_comm]

theorem flagBit_toNat (b : Bool) : (flagBit b).toNat = if b then 1 else 0 := by
  cases b <;> rfl

/-- DF_STAT as a number, by the weights of 10_state R30. -/
theorem State.dfStat_toNat (s : State) :
    s.dfStat.toNat = (if s.ckWarn then 64 else 0) + (if s.rOvf then 32 else 0)
      + (if s.pOvf then 16 else 0) + s.dfErr.code.toNat := by
  simp only [State.dfStat, toNat_append_eq_add, flagBit_toNat]
  split_ifs <;> omega

/-- The value of each register that RREG reads, as a number, in selector order (40_control R103). -/
def State.registerValues (s : State) : List Nat :=
  [if s.ctrlStrict then 1 else 0, s.abase.toNat, s.ckacc.toNat, s.dfPcnt.toNat, s.dfRcnt.toNat,
    s.dfMlen.toNat,
    (if s.ckWarn then 64 else 0) + (if s.rOvf then 32 else 0) + (if s.pOvf then 16 else 0)
      + s.dfErr.code.toNat,
    s.frPhase.code.toNat, s.frPos.toNat, s.frLen.toNat, s.frBase.toNat, s.frSum.toNat,
    s.frCend.toNat]

/-- RREG's selectors read the registers in the order of the list, each zero-extended. -/
theorem State.readRegister_eq (s : State) (sel : Byte) :
    s.readRegister sel = s.registerValues[sel.toNat]?.map (BitVec.ofNat 32) := by
  unfold State.registerValues
  rw [← flagBit_toNat s.ctrlStrict, ← s.dfStat_toNat]
  unfold State.readRegister
  split
  case h_14 =>
    have hpast : 0x0C < sel.toNat := by
      simp only [imp_false, BitVec.toNat_eq, BitVec.toNat_ofNat] at *
      omega
    rw [List.getElem?_eq_none hpast]
    rfl
  all_goals exact congrArg some (BitVec.ofNat_toNat ..).symm

theorem State.readRegister_eq_none {sel : Byte} (h : 0x0C < sel.toNat) (s : State) :
    s.readRegister sel = none := by
  rw [s.readRegister_eq, List.getElem?_eq_none (show s.registerValues.length ≤ sel.toNat from h)]
  rfl

/-! ### The obligations -/

/-- Settles O12: NOP's whole meaning is its response, and its words have no operand. -/
theorem nopChangesNothing : Obligations.NopChangesNothing :=
  ⟨fun _ => rfl, wordsZ_of_decode fun _ => decode_nop_opcode⟩

/-- Settles O13: the operand is 0 or 1 and is its own bit 0, or both the decoder and the command
refuse it. -/
theorem wctrlSetsStrict : Obligations.WctrlSetsStrict := by
  refine ⟨fun s b => ⟨fun hb => exec_wctrl_of_le_one hb s, fun hb => ?_⟩,
    wordsB_of_decode (fun _ => decode_wctrl_opcode) fun _ s hb => exec_wctrl_of_refused hb s⟩
  exact exec_wctrl_of_refused (decide_eq_false (Nat.not_le.mpr hb)) s

/-- Settles O14: WBASE has one case, and format A leaves no 21-bit operand out. -/
theorem wbaseSetsAbase : Obligations.WbaseSetsAbase :=
  ⟨fun _ _ => rfl, wordsA_of_decode fun _ => decode_wbase_opcode⟩

/-- Settles O15: the selector is an index of the list of register values, or past its end. -/
theorem rregReadsEachRegister : Obligations.RregReadsEachRegister := by
  have hpast {s : State} {sel : Byte} (hsel : 0x0C < sel.toNat) :
      exec (.rreg sel) s = .next (illegalAnswer s) :=
    exec_rreg_of_none (s.readRegister_eq_none hsel)
  refine ⟨fun s sel => ⟨fun v hv => exec_rreg_of_some ?_, hpast⟩,
    wordsB_of_decode (fun _ => decode_rreg_opcode) fun _ _ hsel =>
      hpast (Nat.not_le.mp (of_decide_eq_false hsel))⟩
  have hvalue : s.registerValues[sel.toNat]? = some v := hv
  rw [s.readRegister_eq, hvalue]
  rfl

end Sys2Proof.Machine

/-! ## RAM access (41_memory_access R110, R111) -/

namespace Sys2Proof

theorem decode_memwr_opcode {w : Word} (hop : fieldOpcode w = 0x08#8) :
    decode w = .ok (.memwr (fieldAddr w) (fieldD w)) := by
  simp only [decode, hop]

theorem decode_memrd_opcode {w : Word} (hop : fieldOpcode w = 0x09#8) :
    decode w = formatMR w .memrd := by
  simp only [decode, hop]

end Sys2Proof

namespace Sys2Proof.Machine

/-! ### Formats M and MR -/

theorem wordsM_of_decode {op : Byte} {mk : BitVec 16 → Byte → Instr}
    (h : ∀ w, fieldOpcode w = op → decode w = .ok (mk (fieldAddr w) (fieldD w))) : wordsM op mk :=
  fun w s hop => runCommand_ok (h w hop) s

theorem wordsMR_of_decode {op : Byte} {mk : BitVec 16 → Instr}
    (h : ∀ w, fieldOpcode w = op → decode w = formatMR w mk) : wordsMR op mk :=
  fun w s hop => runCommand_of_decode_ite (h w hop) s

/-! ### MEMRD -/

theorem exec_memrd_of_ramSize_le {addr : BitVec 16} (h : 0x8780 ≤ addr.toNat) (s : State) :
    exec (.memrd addr) s = .next (s.raise .memRange) :=
  if_pos h

theorem exec_memrd_of_lt_ramSize {addr : BitVec 16} (h : addr.toNat < 0x8780) (s : State) :
    exec (.memrd addr) s = .next (s.respond ((s.ramRead addr.toNat).setWidth 32) .ok) :=
  if_neg (Nat.not_le.mpr h)

theorem State.ramRead_of_not_listed {s : State} {a : Nat} (h : ∀ c ∈ s.ram, c.1 ≠ a) :
    s.ramRead a = Config.ramInit a :=
  congrArg (Option.getD · (Config.ramInit a)) (Memory.lookup_of_not_listed s.ram a h)

/-! ### MEMWR -/

theorem exec_memwr_of_ramSize_le {addr : BitVec 16} (h : 0x8780 ≤ addr.toNat) (d : Byte)
    (s : State) : exec (.memwr addr d) s = .next (s.raise .memRange) :=
  if_pos h

theorem exec_memwr_of_lt_ramSize {addr : BitVec 16} (h : addr.toNat < 0x8780) (d : Byte)
    (s : State) : exec (.memwr addr d) s = .next ((s.ramWrite addr.toNat d).respond 0#32 .ok) :=
  if_neg (Nat.not_le.mpr h)

/-! ### The obligations -/

/-- Settles O16: both ranges of the offset, and a byte no write listed is not found in the list. -/
theorem memrdReadsOneByte : Obligations.MemrdReadsOneByte := by
  refine ⟨fun s addr => ?_, fun _ _ => State.ramRead_of_not_listed,
    wordsMR_of_decode fun _ => decode_memrd_opcode⟩
  by_cases haddr : 0x8780 ≤ addr.toNat
  · rw [if_pos haddr]
    exact exec_memrd_of_ramSize_le haddr s
  · rw [if_neg haddr, BitVec.ofNat_toNat]
    exact exec_memrd_of_lt_ramSize (Nat.not_le.mp haddr) s

/-- Settles O17: the next state is the write with its response, so the laws of a RAM write say what
every offset reads. -/
theorem memwrWritesOneByte : Obligations.MemwrWritesOneByte := by
  refine ⟨fun s addr d => ⟨fun haddr => exec_memwr_of_ramSize_le haddr d s, fun haddr => ?_⟩,
    wordsM_of_decode fun _ => decode_memwr_opcode⟩
  refine ⟨_, exec_memwr_of_lt_ramSize haddr d s, rfl, ?_, fun a ha => ?_⟩
  · rw [State.respond_ramRead, State.ramRead_ramWrite_same]
  · rw [State.respond_ramRead, State.ramRead_ramWrite_other s d ha]

end Sys2Proof.Machine

/-! ## Checksum (42_checksum R130 to R134) -/

namespace Sys2Proof

theorem decode_ckclr_opcode {w : Word} (hop : fieldOpcode w = 0x10#8) :
    decode w = formatZ w .ckclr := by
  simp only [decode, hop]

theorem decode_ckadd_opcode {w : Word} (hop : fieldOpcode w = 0x11#8) :
    decode w = formatB w fun b => .ok (.ckadd b) := by
  simp only [decode, hop]

theorem decode_ckget_opcode {w : Word} (hop : fieldOpcode w = 0x12#8) :
    decode w = formatZ w .ckget := by
  simp only [decode, hop]

theorem decode_ckvfy_opcode {w : Word} (hop : fieldOpcode w = 0x13#8) :
    decode w = formatB w fun b => .ok (.ckvfy b) := by
  simp only [decode, hop]

end Sys2Proof

namespace Sys2Proof.Machine

/-! ### Format B without an operand check -/

theorem wordsB_of_decode_ok {op : Byte} {mk : Byte → Instr}
    (h : ∀ w, fieldOpcode w = op → decode w = formatB w fun b => .ok (mk b)) : wordsB op mk :=
  fun w s hop => runCommand_of_decode_ite (h w hop) s

/-! ### The checksum as a number (R130) -/

/-- The model's case split on 0x80 is the outer reduction modulo 128. -/
theorem checksum_toNat (s : Byte) : (checksum s).toNat = (128 - s.toNat % 128) % 128 := by
  have h80 : (0x80#8).toNat = 128 := rfl
  have hdiff : (0x80#8 - s % 0x80#8).toNat = 128 - s.toNat % 128 := by
    rw [BitVec.toNat_sub, BitVec.toNat_umod, h80]
    omega
  simp only [checksum]
  split
  next hmax =>
    rw [← hdiff, hmax]
    rfl
  next hmax =>
    rw [BitVec.toNat_eq, hdiff, h80] at hmax
    omega

/-- R134 compares all 8 bits, so the bytes agree exactly when their numbers do. -/
theorem checksum_eq_iff (s b : Byte) :
    checksum s = b ↔ (128 - s.toNat % 128) % 128 = b.toNat := by
  rw [BitVec.toNat_eq, checksum_toNat]

/-! ### The obligations -/

/-- Settles O19: CKCLR has one case, and its words have no operand. -/
theorem ckclrClearsTheAccumulator : Obligations.CkclrClearsTheAccumulator :=
  ⟨fun _ => rfl, wordsZ_of_decode fun _ => decode_ckclr_opcode⟩

/-- Settles O20: a sum of bytes is the sum of their numbers modulo 256, and the response shows it
zero-extended. -/
theorem ckaddAddsModulo256 : Obligations.CkaddAddsModulo256 := by
  refine ⟨fun s b => ?_, wordsB_of_decode_ok fun _ => decode_ckadd_opcode⟩
  have hacc : BitVec.ofNat 8 (s.ckacc.toNat + b.toNat) = s.ckacc + b := rfl
  have hres : BitVec.ofNat 32 ((s.ckacc.toNat + b.toNat) % 256) = (s.ckacc + b).setWidth 32 := by
    rw [← BitVec.ofNat_toNat, BitVec.toNat_add]
  rw [hacc, hres]
  rfl

/-- Settles O21: CKGET answers the checksum of the accumulator, whose number is the negated sum modulo
128. -/
theorem ckgetFoldsTheSum : Obligations.CkgetFoldsTheSum := by
  refine ⟨fun s => ?_, wordsZ_of_decode fun _ => decode_ckget_opcode⟩
  rw [← checksum_toNat, BitVec.ofNat_toNat]
  rfl

/-- Settles O22: CKVFY's two cases are the comparison of the two numbers. -/
theorem ckvfyComparesAllEightBits : Obligations.CkvfyComparesAllEightBits := by
  refine ⟨fun s b => ?_, wordsB_of_decode_ok fun _ => decode_ckvfy_opcode⟩
  simp only [← checksum_eq_iff]
  by_cases hmatch : checksum s.ckacc = b
  · rw [if_pos hmatch]
    exact if_pos hmatch
  · rw [if_neg hmatch]
    exact if_neg hmatch

end Sys2Proof.Machine

/-! ## Address arithmetic (43_address R150 to R152) -/

namespace Sys2Proof

theorem decode_aenc_opcode {w : Word} (hop : fieldOpcode w = 0x20#8) :
    decode w = formatA w .aenc := by
  simp only [decode, hop]

end Sys2Proof

namespace Sys2Proof.Machine

/-! ### A triple and its packed word as numbers (R150, R151) -/

/-- Masking with 0x7F is reduction modulo 128, and the 7 bits fit the wire byte. -/
theorem lowSeven_toNat (a : BitVec 21) : ((a &&& 0x7F#21).setWidth 8).toNat = a.toNat % 2 ^ 7 := by
  have hmask : (a &&& 0x7F#21).toNat = a.toNat % 2 ^ 7 := Nat.and_two_pow_sub_one_eq_mod _ 7
  rw [BitVec.toNat_setWidth, hmask]
  omega

@[simp] theorem enc21_h_toNat (a : BitVec 21) : (enc21 a).h.toNat = a.toNat / 2 ^ 14 := by
  have hfits : a.toNat / 2 ^ 14 % 2 ^ 7 = a.toNat / 2 ^ 14 := by omega
  rw [enc21, lowSeven_toNat, BitVec.toNat_ushiftRight, Nat.shiftRight_eq_div_pow, hfits]

@[simp] theorem enc21_m_toNat (a : BitVec 21) :
    (enc21 a).m.toNat = a.toNat / 2 ^ 7 % 2 ^ 7 := by
  rw [enc21, lowSeven_toNat, BitVec.toNat_ushiftRight, Nat.shiftRight_eq_div_pow]

@[simp] theorem enc21_l_toNat (a : BitVec 21) : (enc21 a).l.toNat = a.toNat % 2 ^ 7 :=
  lowSeven_toNat a

/-- The shifted bytes of R151 do not overlap: the word is the three bytes side by side,
zero-extended. -/
theorem packTriple_eq_append (t : Triple) : packTriple t = (t.h ++ t.m ++ t.l).setWidth 32 := by
  apply BitVec.eq_of_getLsbD_eq
  intro i hi
  simp only [packTriple, BitVec.getLsbD_or, getLsbD_placed 8 16 t.h i (by omega),
    getLsbD_placed 8 8 t.m i (by omega), getLsbD_widened 8 t.l i (by omega),
    getLsbD_widened 24 (t.h ++ t.m ++ t.l) i (by omega), BitVec.getLsbD_append]
  by_cases hl : i < 8
  · simp [hl, show ¬ 8 ≤ i by omega, show ¬ 16 ≤ i by omega]
  · by_cases hm : i < 16
    · simp [hl, show 8 ≤ i by omega, show i - 8 < 8 by omega, show ¬ 16 ≤ i by omega]
    · simp [hl, show 8 ≤ i by omega, show 8 ≤ i - 8 by omega, show 16 ≤ i by omega, Nat.sub_sub]

theorem packTriple_toNat (t : Triple) :
    (packTriple t).toNat = t.h.toNat * 2 ^ 16 + t.m.toNat * 2 ^ 8 + t.l.toNat := by
  simp only [packTriple_eq_append, BitVec.toNat_setWidth, toNat_append_eq_add]
  omega

/-- The packed triple of an address, by the weights of its three 7-bit fields. -/
theorem packTriple_enc21 (a : BitVec 21) :
    packTriple (enc21 a) = BitVec.ofNat 32
      (a.toNat / 2 ^ 14 * 2 ^ 16 + a.toNat / 2 ^ 7 % 2 ^ 7 * 2 ^ 8 + a.toNat % 2 ^ 7) := by
  rw [← enc21_h_toNat, ← enc21_m_toNat, ← enc21_l_toNat, ← packTriple_toNat, BitVec.ofNat_toNat,
    BitVec.setWidth_eq]

/-! ### The obligation -/

/-- Settles O25: the 21-bit sum is the sum of the numbers modulo 2^21, and AENC answers its packed
triple. -/
theorem aencEncodesTheSum : Obligations.AencEncodesTheSum := by
  refine ⟨fun s off => ?_, wordsA_of_decode fun _ => decode_aenc_opcode⟩
  intro a
  have ha : a = (s.abase + off).toNat := (BitVec.toNat_add ..).symm
  rw [ha, ← packTriple_enc21]
  rfl

end Sys2Proof.Machine

/-! ## Character transcoder (44_charset R170, R172 to R175) -/

namespace Sys2Proof

theorem decode_ctoa_opcode {w : Word} (hop : fieldOpcode w = 0x30#8) :
    decode w = formatB w fun b => .ok (.ctoa b) := by
  simp only [decode, hop]

theorem decode_ctoi_opcode {w : Word} (hop : fieldOpcode w = 0x31#8) :
    decode w = formatB w fun b => .ok (.ctoi b) := by
  simp only [decode, hop]

end Sys2Proof

namespace Sys2Proof.Machine

/-! ### The arithmetic of R172 and R173 against the table of R170 -/

/-- The arithmetic of R172 gives the table, code by code. -/
theorem toAscii_ofNat : ∀ c < 64, toAscii (BitVec.ofNat 8 c) = Config.charTable[c]? := by
  decide

/-- The arithmetic of R173 numbers the table's characters in their order. -/
theorem map_toCode_charTable :
    Config.charTable.map (fun ch => (toCode ch).toNat) = List.range 64 := by
  decide

theorem lt_of_charTable_getElem? {c : Nat} {ch : Byte} (h : Config.charTable[c]? = some ch) :
    c < 64 :=
  (List.getElem?_eq_some_iff.mp h).1

theorem toAscii_of_le {c : Byte} (h : 64 ≤ c.toNat) : toAscii c = none :=
  if_pos h

/-- ToAscii is the look-up in the table; a code past its end has no character (R172). -/
theorem toAscii_eq_getElem? (c : Byte) : toAscii c = Config.charTable[c.toNat]? := by
  by_cases hc : c.toNat < 64
  · rw [← toAscii_ofNat _ hc, BitVec.ofNat_toNat, BitVec.setWidth_eq]
  · rw [toAscii_of_le (Nat.not_lt.mp hc)]
    exact (List.getElem?_eq_none (Nat.not_lt.mp hc)).symm

theorem toCode_toNat_of_getElem? {c : Nat} {ch : Byte} (h : Config.charTable[c]? = some ch) :
    (toCode ch).toNat = c := by
  have hc := lt_of_charTable_getElem? h
  have hentry := congrArg (·[c]?) map_toCode_charTable
  simpa [h, hc] using hentry

/-- ToCode's branches below code 63 invert ToAscii's (R172, R173). -/
theorem toAscii_toCode {ch : Byte} (h : toCode ch ≠ 63) : toAscii (toCode ch) = some ch := by
  unfold toCode at h ⊢
  split_ifs at h ⊢ with hspace hupper hlower hdigit hzero
  · rw [hspace]
    rfl
  · rw [toAscii, if_neg (by bv_omega), if_neg (by bv_omega), if_pos (by bv_omega)]
    exact congrArg some (by bv_omega)
  · rw [toAscii, if_neg (by bv_omega), if_neg (by bv_omega), if_neg (by bv_omega),
      if_pos (by bv_omega)]
    exact congrArg some (by bv_omega)
  · rw [toAscii, if_neg (by bv_omega), if_neg (by bv_omega), if_neg (by bv_omega),
      if_neg (by bv_omega), if_pos (by bv_omega)]
    exact congrArg some (by bv_omega)
  · rw [hzero]
    rfl
  all_goals exact absurd rfl h

theorem toCode_of_not_mem {ch : Byte} (h : ch ∉ Config.charTable) : toCode ch = 63 := by
  by_contra hcode
  refine h (List.mem_of_getElem? (i := (toCode ch).toNat) ?_)
  rw [← toAscii_eq_getElem?, toAscii_toCode hcode]

/-! ### CTOA -/

theorem exec_ctoa_of_some {b ch : Byte} (h : toAscii b = some ch) (s : State) :
    exec (.ctoa b) s = .next (s.respond (ch.setWidth 32) .ok) := by
  show execCtoa b s = _
  unfold execCtoa
  rw [h]

theorem exec_ctoa_of_none {b : Byte} (h : toAscii b = none) (s : State) :
    exec (.ctoa b) s = .next (s.raise .charRange) := by
  show execCtoa b s = _
  unfold execCtoa
  rw [h]

/-! ### CTOI -/

theorem exec_ctoi (b : Byte) (s : State) :
    exec (.ctoi b) s = .next (s.respond (BitVec.ofNat 32 (toCode b).toNat) .ok) := by
  rw [BitVec.ofNat_toNat]
  rfl

/-! ### The obligations -/

/-- Settles O27: CTOA answers what ToAscii gives, and ToAscii is the look-up in the table. -/
theorem ctoaReadsTheTable : Obligations.CtoaReadsTheTable := by
  refine ⟨fun s b => ⟨fun ch hch => ?_, fun hb => exec_ctoa_of_none (toAscii_of_le hb) s⟩, rfl,
    wordsB_of_decode_ok fun _ => decode_ctoa_opcode⟩
  rw [BitVec.ofNat_toNat]
  exact exec_ctoa_of_some ((toAscii_eq_getElem? b).trans hch) s

/-- Settles O28: CTOI answers ToCode's number, which is a table character's index; a byte whose
code is not 63 is in the table. -/
theorem ctoiFindsTheCode : Obligations.CtoiFindsTheCode := by
  refine ⟨fun s b => ⟨fun c hc => ?_, fun hb => ?_⟩, wordsB_of_decode_ok fun _ => decode_ctoi_opcode⟩
  · rw [exec_ctoi, toCode_toNat_of_getElem? hc]
    rfl
  · rw [exec_ctoi, toCode_of_not_mem hb]
    rfl

end Sys2Proof.Machine

/-! ## Framer (45_framer R190, R191, R197) -/

namespace Sys2Proof

theorem decode_frstart_opcode {w : Word} (hop : fieldOpcode w = 0x40#8) :
    decode w = .ok (.frstart (fieldLen w)) := by
  simp only [decode, hop]

theorem decode_frpop_opcode {w : Word} (hop : fieldOpcode w = 0x41#8) :
    decode w = formatZ w .frpop := by
  simp only [decode, hop]

end Sys2Proof

namespace Sys2Proof.Machine

/-! ### Format L -/

theorem wordsL_of_decode {op : Byte} {mk : BitVec 24 → Instr}
    (h : ∀ w, fieldOpcode w = op → decode w = .ok (mk (fieldLen w))) : wordsL op mk :=
  fun w s hop => runCommand_ok (h w hop) s

/-! ### Emitting a byte -/

/-- The byte-valid flag lies above the byte, so the result word of a pop is their sum. -/
theorem byteValid_or_eq (out : Byte) :
    0x100#32 ||| out.setWidth 32 = BitVec.ofNat 32 (0x100 + out.toNat) := by
  have hor : 0x100 ||| out.toNat = 0x100 + out.toNat :=
    (Nat.two_pow_add_eq_or_of_lt (i := 8) out.isLt 1).symm
  rw [← hor, BitVec.ofNat_or, BitVec.ofNat_toNat]

theorem next_emit_eq (s : State) {out : Byte} {n : Nat} (hn : out.toNat = n) :
    Host.Outcome.next (φ := Fault) (ρ := Refusal) (s.emit out) =
      .next { s with rspValid := true, rspRes := BitVec.ofNat 32 (0x100 + n), rspErr := .ok } := by
  rw [← hn, ← byteValid_or_eq]
  rfl

theorem next_emitSummed_eq (s : State) {out : Byte} {n : Nat} (hn : out.toNat = n) :
    Host.Outcome.next (φ := Fault) (ρ := Refusal) (s.emitSummed out) =
      .next { s with
        frSum := BitVec.ofNat 8 (s.frSum.toNat + n)
        rspValid := true
        rspRes := BitVec.ofNat 32 (0x100 + n)
        rspErr := .ok } := by
  have hsum : BitVec.ofNat 8 (s.frSum.toNat + n) = s.frSum + out := hn ▸ rfl
  rw [hsum]
  exact next_emit_eq { s with frSum := s.frSum + out } hn

theorem State.frAddress_toNat (s : State) :
    s.frAddress.toNat = (s.frBase.toNat + s.frPos.toNat) % 2 ^ 21 := by
  rw [State.frAddress, BitVec.toNat_add, BitVec.toNat_setWidth_of_le (by decide)]

/-! ### FRPOP, phase by phase (R191) -/

section
variable {s : State}

theorem exec_frpop_idle (hp : s.frPhase = .idle) : exec .frpop s = .next (s.respond 0#32 .ok) := by
  simp only [exec, execFrpop, hp]

theorem exec_frpop_h0 (hp : s.frPhase = .h0) :
    exec .frpop s = .next (State.emit { s with frSum := 0, frPhase := .h1 } 0xF0#8) := by
  simp only [exec, execFrpop, hp]

theorem exec_frpop_h1 (hp : s.frPhase = .h1) :
    exec .frpop s = .next (State.emit { s with frPhase := .h2 } 0x41#8) := by
  simp only [exec, execFrpop, hp]

theorem exec_frpop_h2 (hp : s.frPhase = .h2) :
    exec .frpop s = .next (State.emit { s with frPhase := .h3 } 0x00#8) := by
  simp only [exec, execFrpop, hp]

theorem exec_frpop_h3 (hp : s.frPhase = .h3) :
    exec .frpop s = .next (State.emit { s with frPhase := .h4 } 0x14#8) := by
  simp only [exec, execFrpop, hp]

theorem exec_frpop_h4 (hp : s.frPhase = .h4) :
    exec .frpop s = .next (State.emit { s with frPhase := .ah } 0x12#8) := by
  simp only [exec, execFrpop, hp]

theorem exec_frpop_ah (hp : s.frPhase = .ah) :
    exec .frpop s = .next (State.emitSummed { s with frPhase := .am } (enc21 s.frAddress).h) := by
  simp only [exec, execFrpop, hp]

theorem exec_frpop_am (hp : s.frPhase = .am) :
    exec .frpop s = .next (State.emitSummed { s with frPhase := .al } (enc21 s.frAddress).m) := by
  simp only [exec, execFrpop, hp]

theorem exec_frpop_al (hp : s.frPhase = .al) :
    exec .frpop s =
      .next (State.emitSummed { s with frPhase := .data, frCend := s.chunkEnd }
        (enc21 s.frAddress).l) := by
  simp only [exec, execFrpop, hp]

/-- Below RAM_SIZE the successor of FR_POS does not wrap, so the end of the chunk is the same compared
as numbers. -/
theorem exec_frpop_data (hp : s.frPhase = .data) (hpos : s.frPos.toNat < 0x8780) :
    exec .frpop s =
      .next (State.emitSummed
        { s with
          frPos := s.frPos + 1
          frPhase := if s.frPos.toNat + 1 = s.frCend.toNat then .ck else .data }
        (s.ramRead s.frPos.toNat)) := by
  have hend : s.frPos + 1 = s.frCend ↔ s.frPos.toNat + 1 = s.frCend.toNat := by bv_omega
  simp only [exec, execFrpop, hp, Config.ramSize, if_pos hpos, hend]

theorem exec_frpop_ck (hp : s.frPhase = .ck) :
    exec .frpop s = .next (State.emit { s with frPhase := .eox } (checksum s.frSum)) := by
  simp only [exec, execFrpop, hp]

theorem exec_frpop_eox (hp : s.frPhase = .eox) :
    exec .frpop s =
      .next (State.emit { s with frPhase := if s.frPos = s.frLen then .idle else .h0 }
        Config.eox) := by
  simp only [exec, execFrpop, hp]

end

/-! ### FRSTART (R190) -/

theorem exec_frstart_of_ramSize_lt {len : BitVec 24} (h : 0x8780 < len.toNat) (s : State) :
    exec (.frstart len) s = .next (s.raise .lenRange) :=
  if_pos h

theorem exec_frstart_of_le_ramSize {len : BitVec 24} (h : len.toNat ≤ 0x8780) (s : State) :
    exec (.frstart len) s =
      .next (State.respond
        { s with
          frBase := s.abase
          frLen := BitVec.ofNat 16 len.toNat
          frPos := 0
          frSum := 0
          frCend := 0
          frPhase := if len.toNat = 0 then .idle else .h0 }
        (BitVec.ofNat 32 (framingLength len.toNat)) .ok) := by
  have hempty : len = 0#24 ↔ len.toNat = 0 := BitVec.toNat_eq
  have hfits : ¬ Config.ramSize < len.toNat := Nat.not_lt.mpr h
  simp only [exec, execFrstart, if_neg hfits, hempty, BitVec.ofNat_toNat]

/-! ### The framer's frame (R197) -/

/-- A framer command writes the framer's registers and the response only. -/
theorem exec_framer_frame {i : Instr} {s t : State}
    (hi : i.mnemonic = .FRSTART ∨ i.mnemonic = .FRPOP) (hexec : exec i s = .next t) :
    t = { s with
      frPhase := t.frPhase
      frPos := t.frPos
      frLen := t.frLen
      frBase := t.frBase
      frSum := t.frSum
      frCend := t.frCend
      rspValid := t.rspValid
      rspRes := t.rspRes
      rspErr := t.rspErr } := by
  cases i
  case frstart len =>
    by_cases hlen : len.toNat ≤ 0x8780
    · cases (exec_frstart_of_le_ramSize hlen s).symm.trans hexec
      rfl
    · cases (exec_frstart_of_ramSize_lt (Nat.not_le.mp hlen) s).symm.trans hexec
      rfl
  case frpop =>
    obtain ⟨u, hnext, hu⟩ | ⟨-, -, hfault⟩ := execFrpop_cases s
    · cases hnext.symm.trans hexec
      rw [hu]
    · cases hfault.symm.trans hexec
  all_goals exact absurd hi (by simp [Instr.mnemonic])

/-! ### The obligations -/

/-- Settles O31: each phase's equation, with the byte it emits read as a number. -/
theorem frpopFollowsItsPhase : Obligations.FrpopFollowsItsPhase := by
  refine ⟨fun s => ?_, wordsZ_of_decode fun _ => decode_frpop_opcode⟩
  intro a h m l d given sum
  have ha : s.frAddress.toNat = a := s.frAddress_toNat
  have hh : (enc21 s.frAddress).h.toNat = h := by rw [enc21_h_toNat, ha]
  have hm : (enc21 s.frAddress).m.toNat = m := by rw [enc21_m_toNat, ha]
  have hl : (enc21 s.frAddress).l.toNat = l := by rw [enc21_l_toNat, ha]
  exact ⟨exec_frpop_idle,
    fun hp => (exec_frpop_h0 hp).trans (next_emit_eq _ rfl),
    fun hp => (exec_frpop_h1 hp).trans (next_emit_eq _ rfl),
    fun hp => (exec_frpop_h2 hp).trans (next_emit_eq _ rfl),
    fun hp => (exec_frpop_h3 hp).trans (next_emit_eq _ rfl),
    fun hp => (exec_frpop_h4 hp).trans (next_emit_eq _ rfl),
    fun hp => (exec_frpop_ah hp).trans (next_emitSummed_eq _ hh),
    fun hp => (exec_frpop_am hp).trans (next_emitSummed_eq _ hm),
    fun hp => (exec_frpop_al hp).trans (next_emitSummed_eq _ hl),
    fun hp hpos => (exec_frpop_data hp hpos).trans (next_emitSummed_eq _ rfl),
    fun hp => (exec_frpop_ck hp).trans (next_emit_eq _ (checksum_toNat s.frSum)),
    fun hp => (exec_frpop_eox hp).trans (next_emit_eq _ rfl)⟩

/-- Settles O35: none of the named registers is among those a framer command writes. -/
theorem framerLeavesTheRestUnchanged : Obligations.FramerLeavesTheRestUnchanged := by
  intro i s t hi hexec
  rw [exec_framer_frame hi hexec]
  exact ⟨rfl, rfl, rfl, rfl, rfl, rfl, rfl, rfl, rfl, rfl⟩

/-- Settles O30: both ranges of the length, and format L leaves no 24-bit length out. -/
theorem frstartBeginsAFraming : Obligations.FrstartBeginsAFraming := by
  refine ⟨fun s len => ?_, wordsL_of_decode fun _ => decode_frstart_opcode⟩
  by_cases hlen : 0x8780 < len.toNat
  · rw [if_pos hlen]
    exact exec_frstart_of_ramSize_lt hlen s
  · rw [if_neg hlen]
    exact exec_frstart_of_le_ramSize (Nat.not_lt.mp hlen) s

end Sys2Proof.Machine

/-! ## Deframer: DFSTART and DFEND (46_deframer R220, R230) -/

namespace Sys2Proof

theorem decode_dfstart_opcode {w : Word} (hop : fieldOpcode w = 0x48#8) :
    decode w = formatZ w .dfstart := by
  simp only [decode, hop]

theorem decode_dfend_opcode {w : Word} (hop : fieldOpcode w = 0x4A#8) :
    decode w = formatZ w .dfend := by
  simp only [decode, hop]

end Sys2Proof

namespace Sys2Proof.Machine

/-- Settles O38: DFSTART has one case, and its words have no operand. -/
theorem dfstartClearsTheDeframer : Obligations.DfstartClearsTheDeframer :=
  ⟨fun _ => rfl, wordsZ_of_decode fun _ => decode_dfstart_opcode⟩

/-- Settles O47: the model's chain of checks, with the counts and DF_MLEN read as numbers. -/
theorem dfendChecksTheSizes : Obligations.DfendChecksTheSizes := by
  refine ⟨fun s => ?_, wordsZ_of_decode fun _ => decode_dfend_opcode⟩
  intro res
  have hres : s.dfCounts = res := s.dfCounts_eq
  have hlen : s.dfMlen ≠ 0 ↔ s.dfMlen.toNat ≠ 0 := not_congr BitVec.toNat_eq
  simp only [exec, execDfend, hres, hlen]
  rfl

theorem exec_dfend_of_dfErr {s : State} (h : s.dfErr ≠ .ok) :
    exec .dfend s = .next (s.respond s.dfCounts s.dfErr) :=
  if_pos h

/-- A dropped byte makes DFEND fail with SIZE (46_deframer R228). -/
theorem exec_dfend_of_overflow {s : State} (herr : s.dfErr = .ok) (hlen : s.dfMlen = 0)
    (hovf : s.pOvf = true ∨ s.rOvf = true) :
    ∃ t, exec .dfend s = .next t ∧ t.rspErr = .size := by
  have hpartial : ¬ s.dfMlen.toNat ≠ 0 := not_not_intro (congrArg BitVec.toNat hlen)
  have hsize : s.pOvf = true ∨ s.rOvf = true ∨ s.dfPcnt.toNat ≠ 0x7000 ∨ s.dfRcnt.toNat ≠ 0x1780 :=
    hovf.imp_right .inl
  exact ⟨_, (dfendChecksTheSizes.1 s).trans <| (if_neg (not_not_intro herr)).trans <|
    (if_neg hpartial).trans (if_pos hsize), rfl⟩

end Sys2Proof.Machine

/-! ## Deframer: the sticky error (46_deframer R229) -/

namespace Sys2Proof.Machine

/-- If the outcome is a next state, it holds this DF_ERR. -/
def LeavesDfErr (e : ErrorCode) (o : Host.Outcome State Fault Refusal) : Prop :=
  ∀ t, o = .next t → t.dfErr = e

theorem leavesDfErr_next {e : ErrorCode} {t : State} (h : t.dfErr = e) :
    LeavesDfErr e (.next t) := by
  rintro _ ⟨⟩
  exact h

theorem LeavesDfErr.ite {e : ErrorCode} {c : Prop} [Decidable c]
    {o o' : Host.Outcome State Fault Refusal} (h : LeavesDfErr e o) (h' : LeavesDfErr e o') :
    LeavesDfErr e (if c then o else o') := by
  by_cases hc : c
  · rwa [if_pos hc]
  · rwa [if_neg hc]

theorem exec_rreg_leavesDfErr (sel : Byte) (s : State) :
    LeavesDfErr s.dfErr (exec (.rreg sel) s) := by
  cases hread : s.readRegister sel with
  | some v => exact exec_rreg_of_some hread ▸ leavesDfErr_next rfl
  | none => exact exec_rreg_of_none hread ▸ leavesDfErr_next rfl

theorem exec_ctoa_leavesDfErr (b : Byte) (s : State) :
    LeavesDfErr s.dfErr (exec (.ctoa b) s) := by
  cases hascii : toAscii b with
  | some ch => exact exec_ctoa_of_some hascii s ▸ leavesDfErr_next rfl
  | none => exact exec_ctoa_of_none hascii s ▸ leavesDfErr_next rfl

theorem exec_framer_leavesDfErr {i : Instr} (s : State)
    (hi : i.mnemonic = .FRSTART ∨ i.mnemonic = .FRPOP) : LeavesDfErr s.dfErr (exec i s) := by
  intro t hexec
  rw [exec_framer_frame hi hexec]

theorem exec_dfpush_of_dfErr {s : State} (h : s.dfErr ≠ .ok) (b : Byte) :
    exec (.dfpush b) s = .next (s.raise s.dfErr) :=
  if_pos h

/-- Once set, DF_ERR is cleared by DFSTART only: DFPUSH and DFEND answer it, and no other command
writes it. -/
theorem exec_leavesDfErr {i : Instr} {s : State} (herr : s.dfErr ≠ .ok)
    (hi : i.mnemonic ≠ .DFSTART) : LeavesDfErr s.dfErr (exec i s) := by
  cases i with
  | nop | wbase | ckclr | ckadd | ckget | aenc | ctoi => exact leavesDfErr_next rfl
  | wctrl | memwr | memrd | ckvfy | adec => exact .ite (leavesDfErr_next rfl) (leavesDfErr_next rfl)
  | rreg sel => exact exec_rreg_leavesDfErr sel s
  | ctoa b => exact exec_ctoa_leavesDfErr b s
  | frstart => exact exec_framer_leavesDfErr s (.inl rfl)
  | frpop => exact exec_framer_leavesDfErr s (.inr rfl)
  | dfstart => exact absurd rfl hi
  | dfpush b => exact exec_dfpush_of_dfErr herr b ▸ leavesDfErr_next rfl
  | dfend => exact exec_dfend_of_dfErr herr ▸ leavesDfErr_next rfl

/-- Settles O39: DFPUSH and DFEND test DF_ERR first, every other command but DFSTART leaves it, and
a DFPUSH that fails writes neither RAM nor a count. -/
theorem stickyErrorStaysUntilDfstart : Obligations.StickyErrorStaysUntilDfstart := by
  refine ⟨fun s b herr => ⟨exec_dfpush_of_dfErr herr b, ?_⟩,
    fun i s t herr hi => exec_leavesDfErr herr hi t, fun s t b hexec herr => ?_⟩
  · rw [exec_dfend_of_dfErr herr, s.dfCounts_eq]
    rfl
  · rw [execDfpush_error hexec herr]
    exact ⟨rfl, rfl, rfl⟩

end Sys2Proof.Machine

/-! ## Deframer: the message a terminator completes (46_deframer R221 to R227) -/

namespace Sys2Proof.Machine

/-- The state in which DFPUSH 0xF7 checks its message: the terminator buffered, DF_MLEN back at 0
(46_deframer R221). -/
def State.terminated (s : State) : State :=
  State.mbufWrite { s with dfMlen := 0 } s.dfMlen.toNat 0xF7

theorem exec_dfpush_eox {s : State} (herr : s.dfErr = .ok) (hlen : s.dfMlen.toNat ≤ 265) :
    exec (.dfpush 0xF7) s = .next (s.terminated.completeMessage (s.dfMlen.toNat + 1)) := by
  have hsticky : ¬ s.dfErr ≠ .ok := not_not_intro herr
  have heox : ¬ (0xF7 : Byte) ≠ Config.eox := not_not_intro rfl
  have hroom : ¬ Config.msgMax ≤ s.dfMlen.toNat := Nat.not_le.mpr (Nat.lt_succ_of_le hlen)
  show execDfpush 0xF7 s = _
  unfold execDfpush
  rw [if_neg hsticky, if_neg fun h => heox h.1, if_neg hroom, if_neg heox]
  rfl

theorem exec_dfpush_of_full {s : State} {b : Byte} (herr : s.dfErr = .ok) (hb : b ≠ 0xF7)
    (hlen : s.dfMlen.toNat = 265) : exec (.dfpush b) s = .next (s.dfFail .frameLong) :=
  (if_neg (not_not_intro herr)).trans (if_pos ⟨hb, hlen⟩)

theorem State.completeMessage_short {s : State} {len : Nat} (h : len < 10) :
    s.completeMessage len = s.dfFail .frameShort :=
  if_pos h

/-- Settles O41: the length check comes first when a message completes, and the 266th byte is tested
before it is buffered. -/
theorem messageLengthBounds : Obligations.MessageLengthBounds := by
  refine ⟨fun s herr hshort => ?_, fun s b herr hb hlen => exec_dfpush_of_full herr hb hlen⟩
  rw [exec_dfpush_eox herr (by omega), State.completeMessage_short hshort]
  rfl

/-! ### Reading the buffer as the message -/

theorem State.mbufSlice_succ (s : State) (n : Nat) :
    s.mbufSlice 0 (n + 1) = s.mbufSlice 0 n ++ [s.mbufRead n] := by
  simp only [State.mbufSlice, List.range'_1_concat, List.map_append, List.map_cons, List.map_nil,
    Nat.zero_add]

theorem State.mbufSlice_eq_take_drop (s : State) {lo n len : Nat} (h : lo + n ≤ len) :
    s.mbufSlice lo n = ((s.mbufSlice 0 len).drop lo).take n := by
  have hfits : n ≤ len - lo := by omega
  simp [State.mbufSlice, ← List.map_drop, ← List.map_take, List.drop_range',
    List.take_range'_of_length_ge hfits]

theorem State.mbufSlice_getD (s : State) {i len : Nat} (h : i < len) :
    (s.mbufSlice 0 len).getD i 0 = s.mbufRead i := by
  simp [State.mbufSlice, h]

theorem pendingMessage_length (s : State) : (pendingMessage s).length = s.dfMlen.toNat + 1 := by
  simp [pendingMessage]

theorem State.terminated_mbufSlice (s : State) :
    s.terminated.mbufSlice 0 (s.dfMlen.toNat + 1) = pendingMessage s := by
  have hold : s.terminated.mbufSlice 0 s.dfMlen.toNat = s.mbufSlice 0 s.dfMlen.toNat :=
    State.mbufSlice_congr _ _ _ _ fun i _ hi =>
      State.mbufRead_mbufWrite_other { s with dfMlen := 0 } _ (by omega)
  have hlast : s.terminated.mbufRead s.dfMlen.toNat = 0xF7 := State.mbufRead_mbufWrite_same _ _ _
  rw [State.mbufSlice_succ, hold, hlast, pendingMessage]

theorem State.terminated_mbufRead {s : State} {i : Nat} (h : i < s.dfMlen.toNat + 1) :
    s.terminated.mbufRead i = (pendingMessage s).getD i 0 := by
  rw [← s.terminated_mbufSlice, State.mbufSlice_getD _ h]

section
variable {s : State} (hmin : 9 ≤ s.dfMlen.toNat)
include hmin

theorem State.terminated_header :
    s.terminated.mbufSlice 0 5 = headerOf (pendingMessage s) := by
  rw [headerOf, ← s.terminated_mbufSlice]
  exact State.mbufSlice_eq_take_drop _ (by omega)

theorem State.terminated_body :
    s.terminated.mbufSlice 5 (s.dfMlen.toNat + 1 - 7) = bodyOf (pendingMessage s) := by
  rw [bodyOf, pendingMessage_length, ← s.terminated_mbufSlice]
  exact State.mbufSlice_eq_take_drop _ (by omega)

theorem State.terminated_content :
    s.terminated.mbufSlice 8 (s.dfMlen.toNat + 1 - 10) = contentOf (pendingMessage s) := by
  rw [contentOf, pendingMessage_length, ← s.terminated_mbufSlice]
  exact State.mbufSlice_eq_take_drop _ (by omega)

end

/-! ### The checks as the spec writes them -/

theorem sumBytes_toNat (bs : List Byte) : (sumBytes bs).toNat = natSum bs % 256 := by
  induction bs with
  | nil => rfl
  | cons b bs ih =>
    have hsum : natSum (b :: bs) = b.toNat + natSum bs := rfl
    rw [sumBytes_cons, BitVec.toNat_add, ih, hsum]
    omega

theorem checksumMatches_iff (M : List Byte) :
    checksumMatches M ↔ checksum (sumBytes (bodyOf M)) = M.getD (M.length - 2) 0 := by
  rw [checksumMatches, checksum_eq_iff, sumBytes_toNat, Nat.mod_mod_of_dvd _ (by decide), eq_comm]

theorem reverbMessage_iff (M : List Byte) :
    reverbMessage M ↔ isReverb (M.getD 5 0) (M.getD 6 0) = true := by
  simp [reverbMessage, isReverb, BitVec.lt_def, BitVec.le_def, BitVec.toNat_eq]

section
variable {s : State} (hmin : 9 ≤ s.dfMlen.toNat)
include hmin

theorem State.terminated_checksum :
    checksum (sumBytes (s.terminated.mbufSlice 5 (s.dfMlen.toNat + 1 - 7)))
        = s.terminated.mbufRead (s.dfMlen.toNat + 1 - 2)
      ↔ checksumMatches (pendingMessage s) := by
  rw [State.terminated_body hmin, State.terminated_mbufRead (by omega), checksumMatches_iff,
    pendingMessage_length]

theorem State.terminated_isReverb :
    isReverb (s.terminated.mbufRead 5) (s.terminated.mbufRead 6) = true
      ↔ reverbMessage (pendingMessage s) := by
  rw [State.terminated_mbufRead (by omega), State.terminated_mbufRead (by omega),
    reverbMessage_iff]

theorem State.completeMessage_of_header_ne
    (hhead : headerOf (pendingMessage s) ≠ [0xF0, 0x41, 0x00, 0x14, 0x12]) :
    s.terminated.completeMessage (s.dfMlen.toNat + 1) = s.terminated.dfFail .header := by
  rw [← State.terminated_header hmin] at hhead
  exact (if_neg (Nat.not_lt.mpr (Nat.succ_le_succ hmin))).trans (if_pos hhead)

/-- Past the length and header checks the message's fate turns on its checksum and, on a mismatch,
on STRICT (46_deframer R227). -/
theorem State.completeMessage_of_header
    (hhead : headerOf (pendingMessage s) = [0xF0, 0x41, 0x00, 0x14, 0x12]) :
    s.terminated.completeMessage (s.dfMlen.toNat + 1) =
      if checksum (sumBytes (s.terminated.mbufSlice 5 (s.dfMlen.toNat + 1 - 7)))
          ≠ s.terminated.mbufRead (s.dfMlen.toNat + 1 - 2) then
        if s.ctrlStrict then s.terminated.dfFail .cksum
        else State.acceptMessage { s.terminated with ckWarn := true } (s.dfMlen.toNat + 1 - 10)
      else s.terminated.acceptMessage (s.dfMlen.toNat + 1 - 10) := by
  rw [← State.terminated_header hmin] at hhead
  exact (if_neg (Nat.not_lt.mpr (Nat.succ_le_succ hmin))).trans (if_neg (not_not_intro hhead))

theorem State.completeMessage_of_checksum
    (hhead : headerOf (pendingMessage s) = [0xF0, 0x41, 0x00, 0x14, 0x12])
    (hsum : checksumMatches (pendingMessage s)) :
    s.terminated.completeMessage (s.dfMlen.toNat + 1)
      = s.terminated.acceptMessage (s.dfMlen.toNat + 1 - 10) := by
  rw [State.completeMessage_of_header hmin hhead,
    if_neg (not_not_intro ((State.terminated_checksum hmin).mpr hsum))]

theorem State.completeMessage_of_mismatch
    (hhead : headerOf (pendingMessage s) = [0xF0, 0x41, 0x00, 0x14, 0x12])
    (hsum : ¬ checksumMatches (pendingMessage s)) :
    s.terminated.completeMessage (s.dfMlen.toNat + 1) =
      if s.ctrlStrict then s.terminated.dfFail .cksum
      else State.acceptMessage { s.terminated with ckWarn := true } (s.dfMlen.toNat + 1 - 10) := by
  rw [State.completeMessage_of_header hmin hhead,
    if_pos (mt (State.terminated_checksum hmin).mp hsum)]

end

/-- Settles O42: past the length check the header check decides, on the first five bytes of the
buffer, which are the message's. -/
theorem headerMustMatch : Obligations.HeaderMustMatch := by
  intro s herr hmin hmax hhead
  rw [exec_dfpush_eox herr hmax, State.completeMessage_of_header_ne hmin hhead]
  rfl

end Sys2Proof.Machine

/-! ## Deframer: a region of RAM and what an append makes of it (46_deframer R228) -/

namespace Sys2Proof.Machine

/-- The RAM offset at which a region begins; `true` is reverb memory (20_memory R51). -/
def regionBase (rev : Bool) : Nat := if rev then Config.rBase else Config.pBase

/-- The bytes a region holds. -/
def regionSize (rev : Bool) : Nat := if rev then Config.rSize else Config.pSize

/-- The bytes appended to a region so far (10_state R29). -/
def State.regionCount (s : State) (rev : Bool) : Nat :=
  if rev then s.dfRcnt.toNat else s.dfPcnt.toNat

/-- The overflow flag of a region (10_state R30). -/
def State.regionOvf (s : State) (rev : Bool) : Bool := if rev then s.rOvf else s.pOvf

/-! ### Appending one byte -/

section
variable {s : State} {rev : Bool}

theorem State.appendByte_of_room (h : s.regionCount rev < regionSize rev) (c : Byte) :
    (s.appendByte rev c).regionCount rev = s.regionCount rev + 1
      ∧ (s.appendByte rev c).regionOvf rev = s.regionOvf rev
      ∧ ∀ a, (s.appendByte rev c).ramRead a =
          if a = regionBase rev + s.regionCount rev then c else s.ramRead a := by
  cases rev with
  | true =>
    have hroom : s.dfRcnt.toNat < 0x1780 := h
    have hadd : s.appendByte true c =
        State.ramWrite { s with dfRcnt := s.dfRcnt + 1 } (0x7000 + s.dfRcnt.toNat) c := if_pos h
    have hcount : (s.dfRcnt + 1).toNat = s.dfRcnt.toNat + 1 := by bv_omega
    rw [hadd]
    exact ⟨hcount, rfl, fun a => State.ramRead_ramWrite _ _ a c⟩
  | false =>
    have hroom : s.dfPcnt.toNat < 0x7000 := h
    have hadd : s.appendByte false c =
        State.ramWrite { s with dfPcnt := s.dfPcnt + 1 } (0 + s.dfPcnt.toNat) c := if_pos h
    have hcount : (s.dfPcnt + 1).toNat = s.dfPcnt.toNat + 1 := by bv_omega
    rw [hadd]
    exact ⟨hcount, rfl, fun a => State.ramRead_ramWrite _ _ a c⟩

theorem State.appendByte_of_full (h : regionSize rev ≤ s.regionCount rev) (c : Byte) :
    (s.appendByte rev c).regionCount rev = s.regionCount rev
      ∧ (s.appendByte rev c).regionOvf rev = true
      ∧ ∀ a, (s.appendByte rev c).ramRead a = s.ramRead a := by
  cases rev with
  | true =>
    have hdrop : s.appendByte true c = { s with rOvf := true } := if_neg (Nat.not_lt.mpr h)
    rw [hdrop]
    exact ⟨rfl, rfl, fun _ => rfl⟩
  | false =>
    have hdrop : s.appendByte false c = { s with pOvf := true } := if_neg (Nat.not_lt.mpr h)
    rw [hdrop]
    exact ⟨rfl, rfl, fun _ => rfl⟩

end

/-! ### Appending a message's content -/

section
variable {base size count : Nat} {s u t : State} {c : Byte} {cs : List Byte}

/-- A byte that fits, then the rest. -/
theorem ramAppended.cons (hroom : count < size)
    (hfirst : ∀ a, u.ramRead a = if a = base + count then c else s.ramRead a)
    (hrest : ramAppended u t base size (count + 1) cs) :
    ramAppended s t base size count (c :: cs) := by
  obtain ⟨hnew, hold⟩ := hrest
  refine ⟨fun j hj hfits => ?_, fun a ha => ?_⟩
  · cases j with
    | zero => exact (hold _ (by omega)).trans ((hfirst _).trans (if_pos rfl))
    | succ j =>
      have hbyte := hnew j (Nat.lt_of_succ_lt_succ hj) (by omega)
      rwa [show base + (count + 1) + j = base + count + (j + 1) by omega] at hbyte
  · rw [List.length_cons] at ha
    rw [hold a (by omega), hfirst, if_neg (by omega)]

/-- A full region takes nothing. -/
theorem ramAppended.cons_of_full (hfull : size ≤ count) (hfirst : ∀ a, u.ramRead a = s.ramRead a)
    (hrest : ramAppended u t base size count cs) : ramAppended s t base size count (c :: cs) :=
  ⟨fun _ _ hfits => absurd hfits (by omega),
    fun a _ => (hrest.2 a (by omega)).trans (hfirst a)⟩

end

/-- What an append makes of its own region: the content behind the old bytes as far as it fits, the
count and the overflow flag by the total. -/
theorem State.append_region {s : State} {rev : Bool} (cs : List Byte)
    (h : s.regionCount rev ≤ regionSize rev) :
    (s.append rev cs).regionCount rev = min (s.regionCount rev + cs.length) (regionSize rev)
      ∧ (s.append rev cs).regionOvf rev =
          (s.regionOvf rev || decide (regionSize rev < s.regionCount rev + cs.length))
      ∧ ramAppended s (s.append rev cs) (regionBase rev) (regionSize rev) (s.regionCount rev)
          cs := by
  induction cs generalizing s with
  | nil =>
    refine ⟨(Nat.min_eq_left h).symm, ?_, fun _ hj => absurd hj (Nat.not_lt_zero _), fun _ _ => rfl⟩
    rw [List.length_nil, Nat.add_zero, decide_eq_false (Nat.not_lt.mpr h), Bool.or_false,
      State.append_nil]
  | cons c cs ih =>
    rw [State.append_cons, List.length_cons]
    by_cases hroom : s.regionCount rev < regionSize rev
    · obtain ⟨hcount, hovf, hram⟩ := State.appendByte_of_room hroom c
      obtain ⟨ihcount, ihovf, ihram⟩ := ih (s := s.appendByte rev c) (by omega)
      have htotal : s.regionCount rev + 1 + cs.length = s.regionCount rev + (cs.length + 1) := by
        omega
      rw [hcount, htotal] at ihcount ihovf
      rw [hcount] at ihram
      exact ⟨ihcount, hovf ▸ ihovf, .cons hroom hram ihram⟩
    · have hfull : regionSize rev ≤ s.regionCount rev := Nat.not_lt.mp hroom
      obtain ⟨hcount, hovf, hram⟩ := State.appendByte_of_full hfull c
      obtain ⟨ihcount, ihovf, ihram⟩ := ih (s := s.appendByte rev c) (by omega)
      rw [hcount] at ihcount ihram
      refine ⟨?_, ?_, .cons_of_full hfull hram ihram⟩
      · rw [ihcount, Nat.min_eq_right (by omega), Nat.min_eq_right (by omega)]
      · rw [ihovf, hovf, Bool.true_or, decide_eq_true (by omega), Bool.or_true]

/-- `s` with this RAM and with this count and overflow flag of a region. -/
def State.setRegion (s : State) (rev : Bool) (ram : Memory) (count : Nat) (ovf : Bool) : State :=
  if rev then { s with ram := ram, dfRcnt := BitVec.ofNat 13 count, rOvf := ovf }
  else { s with ram := ram, dfPcnt := BitVec.ofNat 15 count, pOvf := ovf }

theorem State.setRegion_of (s u : State) (rev : Bool) :
    s.setRegion rev u.ram (u.regionCount rev) (u.regionOvf rev) =
      if rev then { s with ram := u.ram, dfRcnt := u.dfRcnt, rOvf := u.rOvf }
      else { s with ram := u.ram, dfPcnt := u.dfPcnt, pOvf := u.pOvf } := by
  cases rev <;> simp [State.setRegion, State.regionCount, State.regionOvf]

theorem State.appendByte_writes_region (s : State) (rev : Bool) (c : Byte) :
    s.appendByte rev c = s.setRegion rev (s.appendByte rev c).ram
      ((s.appendByte rev c).regionCount rev) ((s.appendByte rev c).regionOvf rev) := by
  rw [State.setRegion_of]
  obtain ⟨rfl, -, e⟩ | ⟨rfl, -, e⟩ | ⟨rfl, -, e⟩ | ⟨rfl, -, e⟩ := s.appendByte_cases rev c <;>
    rw [e] <;> rfl

/-- An append writes nothing but its region. -/
theorem State.append_writes_region (s : State) (rev : Bool) (cs : List Byte) :
    s.append rev cs = s.setRegion rev (s.append rev cs).ram
      ((s.append rev cs).regionCount rev) ((s.append rev cs).regionOvf rev) := by
  refine State.append_induction
    (P := fun u => u = s.setRegion rev u.ram (u.regionCount rev) (u.regionOvf rev)) rev
    (fun u c hu => ?_) cs s ?_
  · refine (u.appendByte_writes_region rev c).trans ?_
    rw [hu]
    cases rev <;> rfl
  · rw [State.setRegion_of]
    cases rev <;> rfl

theorem State.append_eq_setRegion {s : State} {rev : Bool} (cs : List Byte)
    (h : s.regionCount rev ≤ regionSize rev) :
    s.append rev cs = s.setRegion rev (s.append rev cs).ram
      (min (s.regionCount rev + cs.length) (regionSize rev))
      (s.regionOvf rev || decide (regionSize rev < s.regionCount rev + cs.length)) := by
  obtain ⟨hcount, hovf, -⟩ := State.append_region cs h
  rw [← hcount, ← hovf]
  exact s.append_writes_region rev cs

end Sys2Proof.Machine

/-! ## Deframer: accepted messages (46_deframer R226 to R228, R231) -/

namespace Sys2Proof.Machine

/-! ### The result word (R231) -/

/-- The fields of the result word do not overlap, so it is their weighted sum. -/
theorem messageResult_eq (n : Nat) (rev : Bool) :
    messageResult n rev = BitVec.ofNat 32 (n * 65536 + if rev then 3 else 1) := by
  have hlow : (BitVec.ofBool rev).setWidth 32 <<< 1 ||| 1#32
      = BitVec.ofNat 32 (if rev then 3 else 1) := by
    cases rev <;> rfl
  have hor : n * 65536 ||| (if rev then 3 else 1) = n * 65536 + if rev then 3 else 1 := by
    rw [← Nat.shiftLeft_eq _ 16, Nat.shiftLeft_add_eq_or_of_lt (by split <;> omega)]
  have hhigh : BitVec.ofNat 32 n <<< 16 = BitVec.ofNat 32 (n * 65536) := by
    apply BitVec.eq_of_toNat_eq
    simp only [BitVec.toNat_shiftLeft, BitVec.toNat_ofNat, Nat.shiftLeft_eq]
    omega
  rw [messageResult, BitVec.or_assoc, hlow, hhigh, ← BitVec.ofNat_or, hor]

theorem messageResult_toNat {n : Nat} (hn : n ≤ 256) (rev : Bool) :
    (messageResult n rev).toNat = n * 65536 + if rev then 3 else 1 := by
  rw [messageResult_eq, BitVec.toNat_ofNat]
  split <;> omega

theorem messageResult_fields {n : Nat} (hn : n ≤ 256) (rev : Bool) :
    (messageResult n rev).getLsbD 0 = true
      ∧ (messageResult n rev).getLsbD 1 = rev
      ∧ ((messageResult n rev).extractLsb' 16 9).toNat = n
      ∧ (messageResult n rev).extractLsb' 2 14 = 0#14
      ∧ (messageResult n rev).extractLsb' 25 7 = 0#7 := by
  have hval := messageResult_toNat hn rev
  simp only [BitVec.toNat_eq, BitVec.extractLsb'_toNat, ← BitVec.testBit_toNat, hval,
    Nat.testBit_eq_decide_div_mod_eq, Nat.shiftRight_eq_div_pow]
  cases rev <;>
    simp only [Bool.false_eq_true, if_false, if_true, decide_eq_true_eq, decide_eq_false_iff_not,
      BitVec.toNat_ofNat] <;> omega

/-! ### Acceptance -/

/-- Accepting a message writes its region and the response: the content behind the region's old
bytes, the count and the flag by the total, and R231's word. -/
theorem State.acceptMessage_eq_setRegion {s : State} {n : Nat} {rev : Bool} {content : List Byte}
    (hcontent : s.mbufSlice 8 n = content)
    (hrev : isReverb (s.mbufRead 5) (s.mbufRead 6) = rev)
    (hroom : s.regionCount rev ≤ regionSize rev) :
    s.acceptMessage n =
        (s.setRegion rev (s.acceptMessage n).ram
          (min (s.regionCount rev + content.length) (regionSize rev))
          (s.regionOvf rev || decide (regionSize rev < s.regionCount rev + content.length))).respond
          (BitVec.ofNat 32 (content.length * 65536 + if rev then 3 else 1)) .ok
      ∧ ramAppended s (s.acceptMessage n) (regionBase rev) (regionSize rev) (s.regionCount rev)
          content := by
  have hn : content.length = n := hcontent ▸ s.mbufSlice_length 8 n
  have haccept : s.acceptMessage n = (s.append rev content).respond (messageResult n rev) .ok := by
    rw [State.acceptMessage_eq, hrev, hcontent]
  obtain ⟨-, -, hram⟩ := State.append_region content hroom
  rw [haccept, ← messageResult_eq, ← hn]
  exact ⟨congrArg (State.respond · _ .ok) (State.append_eq_setRegion content hroom), hram⟩

/-- The message's content goes to the region that R226 names; `warn` is CK_WARN as the checksum
check leaves it. -/
theorem State.acceptMessage_acceptedInto {s : State} (hmin : 9 ≤ s.dfMlen.toNat) (warn : Bool)
    (hp : s.dfPcnt.toNat ≤ 0x7000) (hr : s.dfRcnt.toNat ≤ 0x1780) :
    acceptedInto s
      (State.acceptMessage { s.terminated with ckWarn := warn } (s.dfMlen.toNat + 1 - 10))
      (pendingMessage s) warn :=
  ⟨fun hrev => State.acceptMessage_eq_setRegion (s := { s.terminated with ckWarn := warn })
      (State.terminated_content hmin) ((State.terminated_isReverb hmin).mpr hrev) hr,
    fun hpatch => State.acceptMessage_eq_setRegion (s := { s.terminated with ckWarn := warn })
      (State.terminated_content hmin)
      (Bool.eq_false_iff.mpr (mt (State.terminated_isReverb hmin).mp hpatch)) hp⟩

/-- Settles O43: a mismatch is CKSUM under STRICT, and otherwise the message is accepted with
CK_WARN set. -/
theorem checksumMismatch : Obligations.ChecksumMismatch := by
  intro s herr hmin hmax hp hr hhead hsum
  rw [exec_dfpush_eox herr hmax, State.completeMessage_of_mismatch hmin hhead hsum]
  refine ⟨fun hstrict => ?_, fun hstrict => ?_⟩
  · rw [if_pos hstrict]
    rfl
  · rw [if_neg (Bool.eq_false_iff.mp hstrict)]
    exact ⟨_, rfl, State.acceptMessage_acceptedInto hmin true hp hr⟩

/-- Settles O44: past its checks the message is accepted whatever STRICT is, and no DF_ERR or
partial message hides an overflow from the next DFEND. -/
theorem acceptedMessageIsAppended : Obligations.AcceptedMessageIsAppended := by
  intro s herr hmin hmax hp hr hhead hsum
  rw [exec_dfpush_eox herr hmax, State.completeMessage_of_checksum hmin hhead hsum]
  refine ⟨_, rfl, State.acceptMessage_acceptedInto hmin s.ckWarn hp hr, fun hovf => ?_⟩
  refine exec_dfend_of_overflow ?_ ?_ hovf <;> rw [State.acceptMessage_frame]
  · exact herr
  · rfl

/-- A completed message that ends without an error was long enough and answers its result word. -/
theorem State.completeMessage_ok {s : State} {len : Nat}
    (h : (s.completeMessage len).rspErr = .ok) :
    10 ≤ len ∧ (s.completeMessage len).rspRes =
      messageResult (len - 10) (isReverb (s.mbufRead 5) (s.mbufRead 6)) := by
  obtain ⟨-, e⟩ | ⟨-, -, e⟩ | ⟨-, -, -, -, e⟩ | ⟨hlen, -, -, -, e⟩ | ⟨hlen, -, -, e⟩ :=
    s.completeMessage_cases len
  case inr.inr.inr.inl | inr.inr.inr.inr => exact ⟨hlen, congrArg State.rspRes e⟩
  all_goals exact absurd ((congrArg State.rspErr e).symm.trans h) nofun

theorem exec_dfpush_rspRes_of_ne_eox {s t : State} {b : Byte} (hexec : exec (.dfpush b) s = .next t)
    (hb : b ≠ 0xF7) : t.rspRes = 0 := by
  obtain ⟨-, e⟩ | ⟨-, -, -, e⟩ | ⟨-, -, e⟩ | ⟨-, -, -, e⟩ | ⟨-, heox, -, -⟩ := execDfpush_cases s b
  case inr.inr.inr.inr => exact absurd heox hb
  all_goals cases e.symm.trans hexec
  all_goals rfl

theorem exec_dfpush_eox_ok {s t : State} (hexec : exec (.dfpush 0xF7) s = .next t)
    (hok : t.rspErr = .ok) : 9 ≤ s.dfMlen.toNat ∧ s.dfMlen.toNat ≤ 265 ∧
      t.rspRes = messageResult (s.dfMlen.toNat + 1 - 10)
        (isReverb (s.terminated.mbufRead 5) (s.terminated.mbufRead 6)) := by
  obtain ⟨herr, e⟩ | ⟨-, heox, -, -⟩ | ⟨-, -, e⟩ | ⟨-, heox, -, -⟩ | ⟨-, -, hmax, e⟩ :=
    execDfpush_cases s 0xF7
  case inr.inl | inr.inr.inr.inl => exact absurd rfl heox
  all_goals cases e.symm.trans hexec
  case inl => exact absurd hok herr
  case inr.inr.inr.inr =>
    obtain ⟨hlen, hres⟩ := State.completeMessage_ok hok
    exact ⟨by omega, hmax, hres⟩

/-- Settles O45: a DFPUSH that fails or buffers answers 0, and the word of an accepted message is
R231's, field by field. -/
theorem dfpushResultWord : Obligations.DfpushResultWord := by
  refine fun s t b hexec => ⟨fun h => ?_, fun hb hok => ?_⟩
  · exact h.elim (exec_dfpush_rspRes_of_ne_eox hexec) fun herr =>
      congrArg State.rspRes (execDfpush_error hexec herr)
  · obtain ⟨hmin, hmax, hres⟩ := exec_dfpush_eox_ok (hb ▸ hexec) hok
    obtain ⟨hdone, hrev, hcount, hlow, hhigh⟩ := messageResult_fields (n := s.dfMlen.toNat + 1 - 10)
      (by omega) (isReverb (s.terminated.mbufRead 5) (s.terminated.mbufRead 6))
    rw [hres, hrev, State.terminated_isReverb hmin]
    exact ⟨_, by omega, by omega, hdone, Iff.rfl, hcount, hlow, hhigh⟩

end Sys2Proof.Machine

/-! ## Encoder and decoder (30_encoding R71, R73, R74) -/

namespace Sys2Proof

theorem decode_adec_opcode {w : Word} (hop : fieldOpcode w = 0x21#8) :
    decode w = .ok (.adec (fieldH w) (fieldM w) (fieldL w)) := by
  simp only [decode, hop]

theorem decode_dfpush_opcode {w : Word} (hop : fieldOpcode w = 0x49#8) :
    decode w = formatB w fun b => .ok (.dfpush b) := by
  simp only [decode, hop]

/-! ### A format's decoder on the words the encoder writes -/

theorem formatZ_wordZ (op : Byte) (i : Instr) : formatZ (wordZ op) i = .ok i :=
  if_pos (reserved_wordZ op)

theorem formatB_wordB (op b : Byte) (mk : Byte → Except IllegalWord Instr) :
    formatB (wordB op b) mk = mk b :=
  (if_pos (reserved_wordB op b)).trans (congrArg mk (fieldB_wordB op b))

theorem formatA_wordA (op : Byte) (imm21 : BitVec 21) (mk : BitVec 21 → Instr) :
    formatA (wordA op imm21) mk = .ok (mk imm21) :=
  (if_pos (reserved_wordA op imm21)).trans
    (congrArg (fun x => Except.ok (mk x)) (fieldImm21_wordA op imm21))

theorem formatMR_wordMR (op : Byte) (addr : BitVec 16) (mk : BitVec 16 → Instr) :
    formatMR (wordMR op addr) mk = .ok (mk addr) :=
  (if_pos (reserved_wordMR op addr)).trans
    (congrArg (fun x => Except.ok (mk x)) (fieldAddr_wordMR op addr))

/-- Settles O6: the word of each command selects its opcode's format, whose fields read back the
operands; only WCTRL and RREG refuse an operand, by the check that makes the term well-formed. -/
theorem decodeInvertsEncode : Obligations.DecodeInvertsEncode := by
  intro i hi
  cases i with
  | nop => exact (decode_nop_opcode (fieldOpcode_wordZ _)).trans (formatZ_wordZ _ _)
  | wctrl b =>
    exact (decode_wctrl_opcode (fieldOpcode_wordB _ b)).trans
      ((formatB_wordB _ b _).trans (if_pos hi))
  | wbase imm21 => exact (decode_wbase_opcode (fieldOpcode_wordA _ _)).trans (formatA_wordA _ _ _)
  | rreg sel =>
    exact (decode_rreg_opcode (fieldOpcode_wordB _ sel)).trans
      ((formatB_wordB _ sel _).trans (if_pos hi))
  | memwr addr d =>
    rw [show encode (.memwr addr d) = wordM 0x08#8 addr d from rfl,
      decode_memwr_opcode (fieldOpcode_wordM _ _ _), fieldAddr_wordM, fieldD_wordM]
  | memrd addr => exact (decode_memrd_opcode (fieldOpcode_wordMR _ _)).trans (formatMR_wordMR _ _ _)
  | ckclr => exact (decode_ckclr_opcode (fieldOpcode_wordZ _)).trans (formatZ_wordZ _ _)
  | ckadd b => exact (decode_ckadd_opcode (fieldOpcode_wordB _ _)).trans (formatB_wordB _ _ _)
  | ckget => exact (decode_ckget_opcode (fieldOpcode_wordZ _)).trans (formatZ_wordZ _ _)
  | ckvfy b => exact (decode_ckvfy_opcode (fieldOpcode_wordB _ _)).trans (formatB_wordB _ _ _)
  | aenc imm21 => exact (decode_aenc_opcode (fieldOpcode_wordA _ _)).trans (formatA_wordA _ _ _)
  | adec h m l =>
    rw [show encode (.adec h m l) = wordT 0x21#8 h m l from rfl,
      decode_adec_opcode (fieldOpcode_wordT _ _ _ _), fieldH_wordT, fieldM_wordT, fieldL_wordT]
  | ctoa b => exact (decode_ctoa_opcode (fieldOpcode_wordB _ _)).trans (formatB_wordB _ _ _)
  | ctoi b => exact (decode_ctoi_opcode (fieldOpcode_wordB _ _)).trans (formatB_wordB _ _ _)
  | frstart len =>
    rw [show encode (.frstart len) = wordL 0x40#8 len from rfl,
      decode_frstart_opcode (fieldOpcode_wordL _ _), fieldLen_wordL]
  | frpop => exact (decode_frpop_opcode (fieldOpcode_wordZ _)).trans (formatZ_wordZ _ _)
  | dfstart => exact (decode_dfstart_opcode (fieldOpcode_wordZ _)).trans (formatZ_wordZ _ _)
  | dfpush b => exact (decode_dfpush_opcode (fieldOpcode_wordB _ _)).trans (formatB_wordB _ _ _)
  | dfend => exact (decode_dfend_opcode (fieldOpcode_wordZ _)).trans (formatZ_wordZ _ _)

/-! ### A word is the encoding of its own fields -/

theorem wordL_fields {w : Word} {op : Byte} (hop : fieldOpcode w = op) :
    wordL op (fieldLen w) = w := by
  subst hop
  apply BitVec.eq_of_getLsbD_eq
  intro i hi
  rw [wordL, BitVec.getLsbD_or, getLsbD_opcodeBits, getLsbD_widened 24 _ i (by omega)]
  by_cases hop : 24 ≤ i
  · simp [fieldOpcode, fieldLen, hop, show i - 24 < 8 by omega]
  · simp [fieldLen, hop, show i < 24 by omega]

theorem wordM_fields {w : Word} {op : Byte} (hop : fieldOpcode w = op) :
    wordM op (fieldAddr w) (fieldD w) = w := by
  subst hop
  apply BitVec.eq_of_getLsbD_eq
  intro i hi
  rw [wordM, BitVec.getLsbD_or, BitVec.getLsbD_or, getLsbD_opcodeBits,
    getLsbD_placed 16 8 _ i (by omega), getLsbD_widened 8 _ i (by omega)]
  by_cases hop : 24 ≤ i
  · simp [fieldOpcode, fieldAddr, fieldD, hop, show i - 24 < 8 by omega, show ¬ i < 8 by omega,
      show ¬ i - 8 < 16 by omega]
  · by_cases haddr : 8 ≤ i
    · simp [fieldAddr, fieldD, hop, haddr, show i - 8 < 16 by omega]
    · simp [fieldD, hop, haddr, show i < 8 by omega]

theorem wordT_fields {w : Word} {op : Byte} (hop : fieldOpcode w = op) :
    wordT op (fieldH w) (fieldM w) (fieldL w) = w := by
  subst hop
  apply BitVec.eq_of_getLsbD_eq
  intro i hi
  rw [wordT, BitVec.getLsbD_or, BitVec.getLsbD_or, BitVec.getLsbD_or, getLsbD_opcodeBits,
    getLsbD_placed 8 16 _ i (by omega), getLsbD_placed 8 8 _ i (by omega),
    getLsbD_widened 8 _ i (by omega)]
  by_cases hop : 24 ≤ i
  · simp [fieldOpcode, fieldH, fieldM, fieldL, hop, show i - 24 < 8 by omega,
      show ¬ i - 16 < 8 by omega, show ¬ i - 8 < 8 by omega, show ¬ i < 8 by omega]
  · by_cases hh : 16 ≤ i
    · simp [fieldH, fieldM, fieldL, hop, hh, show i - 16 < 8 by omega, show ¬ i - 8 < 8 by omega,
        show ¬ i < 8 by omega]
    · by_cases hm : 8 ≤ i
      · simp [fieldM, fieldL, hop, hh, hm, show i - 8 < 8 by omega]
      · simp [fieldL, hop, hh, hm, show i < 8 by omega]

/-- With the reserved bits of formats Z, A and B zero, the 24 bits below the opcode are the operand
alone. -/
theorem fieldLen_eq_setWidth {w : Word} {n k : Nat} (hn : n + k = 24)
    (hzero : w.extractLsb' n k = 0#k) : fieldLen w = (w.extractLsb' 0 n).setWidth 24 := by
  apply BitVec.eq_of_getLsbD_eq
  intro i hi
  by_cases hlow : i < n
  · simp [fieldLen, hi, hlow]
  · have hw : w.getLsbD i = false := by
      have hbit := congrArg (BitVec.getLsbD · (i - n)) hzero
      simpa [show i - n < k by omega, show n + (i - n) = i by omega] using hbit
    simp [fieldLen, hw]

/-! ### What a format's decoder accepts -/

section
variable {w : Word} {op : Byte} {i : Instr} (hop : fieldOpcode w = op)
include hop

theorem formatZ_ok {j : Instr} (h : formatZ w i = .ok j) : wordZ op = w := by
  by_cases hz : w.extractLsb' 0 24 = 0#24
  · have hword : wordZ op = wordL op 0#24 := by simp [wordZ, wordL]
    rw [hword, ← show fieldLen w = 0#24 from hz, wordL_fields hop]
  · exact nomatch (if_neg hz).symm.trans h

theorem formatB_ok {mk : Byte → Except IllegalWord Instr} (h : formatB w mk = .ok i) :
    mk (fieldB w) = .ok i ∧ wordB op (fieldB w) = w := by
  by_cases hz : w.extractLsb' 8 16 = 0#16
  · have hword : wordB op (fieldB w) = wordL op ((fieldB w).setWidth 24) := by simp [wordB, wordL]
    refine ⟨(if_pos hz).symm.trans h, ?_⟩
    rw [hword, ← show fieldLen w = (fieldB w).setWidth 24 from fieldLen_eq_setWidth rfl hz,
      wordL_fields hop]
  · exact nomatch (if_neg hz).symm.trans h

theorem formatA_ok {mk : BitVec 21 → Instr} (h : formatA w mk = .ok i) :
    mk (fieldImm21 w) = i ∧ wordA op (fieldImm21 w) = w := by
  by_cases hz : w.extractLsb' 21 3 = 0#3
  · have hword : wordA op (fieldImm21 w) = wordL op ((fieldImm21 w).setWidth 24) := by
      simp [wordA, wordL]
    refine ⟨Except.ok.inj ((if_pos hz).symm.trans h), ?_⟩
    rw [hword, ← show fieldLen w = (fieldImm21 w).setWidth 24 from fieldLen_eq_setWidth rfl hz,
      wordL_fields hop]
  · exact nomatch (if_neg hz).symm.trans h

theorem formatMR_ok {mk : BitVec 16 → Instr} (h : formatMR w mk = .ok i) :
    mk (fieldAddr w) = i ∧ wordMR op (fieldAddr w) = w := by
  by_cases hz : w.extractLsb' 0 8 = 0#8
  · have hword : wordMR op (fieldAddr w) = wordM op (fieldAddr w) 0#8 := by simp [wordMR, wordM]
    refine ⟨Except.ok.inj ((if_pos hz).symm.trans h), ?_⟩
    rw [hword, ← show fieldD w = 0#8 from hz, wordM_fields hop]
  · exact nomatch (if_neg hz).symm.trans h

end

/-- The decoder gives the command the operands that stand in the word. -/
theorem encode_of_decode_ok {w : Word} {i : Instr} (h : decode w = .ok i) : encode i = w := by
  obtain ⟨-, -, hop⟩ := decode_ok h
  cases i with
  | nop => exact formatZ_ok hop ((decode_nop_opcode hop).symm.trans h)
  | wctrl b =>
    obtain ⟨hb, hw⟩ := formatB_ok hop ((decode_wctrl_opcode hop).symm.trans h)
    unfold decodeControl at hb
    split at hb <;> cases hb
    exact hw
  | wbase imm21 =>
    obtain ⟨⟨⟩, hw⟩ := formatA_ok hop ((decode_wbase_opcode hop).symm.trans h)
    exact hw
  | rreg sel =>
    obtain ⟨hb, hw⟩ := formatB_ok hop ((decode_rreg_opcode hop).symm.trans h)
    unfold decodeSelector at hb
    split at hb <;> cases hb
    exact hw
  | memwr addr d =>
    cases (decode_memwr_opcode hop).symm.trans h
    exact wordM_fields hop
  | memrd addr =>
    obtain ⟨⟨⟩, hw⟩ := formatMR_ok hop ((decode_memrd_opcode hop).symm.trans h)
    exact hw
  | ckclr => exact formatZ_ok hop ((decode_ckclr_opcode hop).symm.trans h)
  | ckadd b =>
    obtain ⟨⟨⟩, hw⟩ := formatB_ok hop ((decode_ckadd_opcode hop).symm.trans h)
    exact hw
  | ckget => exact formatZ_ok hop ((decode_ckget_opcode hop).symm.trans h)
  | ckvfy b =>
    obtain ⟨⟨⟩, hw⟩ := formatB_ok hop ((decode_ckvfy_opcode hop).symm.trans h)
    exact hw
  | aenc imm21 =>
    obtain ⟨⟨⟩, hw⟩ := formatA_ok hop ((decode_aenc_opcode hop).symm.trans h)
    exact hw
  | adec hi mid lo =>
    cases (decode_adec_opcode hop).symm.trans h
    exact wordT_fields hop
  | ctoa b =>
    obtain ⟨⟨⟩, hw⟩ := formatB_ok hop ((decode_ctoa_opcode hop).symm.trans h)
    exact hw
  | ctoi b =>
    obtain ⟨⟨⟩, hw⟩ := formatB_ok hop ((decode_ctoi_opcode hop).symm.trans h)
    exact hw
  | frstart len =>
    cases (decode_frstart_opcode hop).symm.trans h
    exact wordL_fields hop
  | frpop => exact formatZ_ok hop ((decode_frpop_opcode hop).symm.trans h)
  | dfstart => exact formatZ_ok hop ((decode_dfstart_opcode hop).symm.trans h)
  | dfpush b =>
    obtain ⟨⟨⟩, hw⟩ := formatB_ok hop ((decode_dfpush_opcode hop).symm.trans h)
    exact hw
  | dfend => exact formatZ_ok hop ((decode_dfend_opcode hop).symm.trans h)

/-- Settles O7: the decoder accepts well-formed commands only, with every bit of the word in the
opcode, in an operand or checked to be zero. -/
theorem encodeInvertsDecode : Obligations.EncodeInvertsDecode := by
  intro w i h
  obtain ⟨-, hi, -⟩ := decode_ok h
  exact ⟨hi, encode_of_decode_ok h⟩

/-! ### The rows of the match-and-mask table (R74) -/

theorem mem_mnemonics (m : Mnemonic) : m ∈ Machine.mnemonics := by
  cases m <;> decide

theorem opcodeOf_injective {m n : Mnemonic} (h : opcodeOf m = opcodeOf n) : m = n := by
  have hall : ∀ m ∈ Machine.mnemonics, ∀ n ∈ Machine.mnemonics,
      opcodeOf m = opcodeOf n → m = n := by
    decide
  exact hall m (mem_mnemonics m) n (mem_mnemonics n) h

/-- Every mask covers the whole opcode, so a row is selected by words of its own opcode only. -/
theorem fieldOpcode_of_selects {r : OpcodeRow} {w : Word} (hr : r ∈ opcodeTable)
    (h : w &&& r.mask = r.matchBits) : fieldOpcode w = opcodeOf r.mnemonic := by
  have hmask : ∀ r ∈ opcodeTable, fieldOpcode r.mask = BitVec.allOnes 8 := by decide
  have hand : fieldOpcode (w &&& r.mask) = fieldOpcode w &&& fieldOpcode r.mask :=
    BitVec.extractLsb'_and
  rw [← opcodeTable_opcode hr, ← h, hand, hmask r hr, BitVec.and_allOnes]

/-- WCTRL's row requires bits 7:1 to be zero among its other reserved bits. -/
theorem wctrlBits_of_selects {r : OpcodeRow} {w : Word} (hr : r ∈ opcodeTable)
    (h : w &&& r.mask = r.matchBits) (hm : r.mnemonic = .WCTRL) : w.extractLsb' 1 7 = 0#7 := by
  have hmask : ∀ r ∈ opcodeTable, r.mnemonic = .WCTRL →
      r.mask.extractLsb' 1 7 = BitVec.allOnes 7 ∧ r.matchBits.extractLsb' 1 7 = 0#7 := by decide
  obtain ⟨hones, hzero⟩ := hmask r hr hm
  rw [← hzero, ← h, BitVec.extractLsb'_and, hones, BitVec.and_allOnes]

/-- The row of the word's mnemonic is the one that selects it. -/
theorem row_selects_iff_decodes {r : OpcodeRow} (hr : r ∈ opcodeTable) (w : Word) :
    (w &&& r.mask = r.matchBits ∧ Machine.rowCondition r w)
      ↔ ∃ i, decode w = .ok i ∧ i.mnemonic = r.mnemonic := by
  constructor
  · rintro ⟨hsel, hrreg⟩
    have hop := fieldOpcode_of_selects hr hsel
    have hword : wellFormedWord w = true := (wellFormedWord_iff_row hr hop).mpr
      ⟨beq_iff_eq.mpr hsel, wctrlBits_of_selects hr hsel, hrreg⟩
    cases hdec : decode w with
    | ok i =>
      obtain ⟨-, -, hi⟩ := decode_ok hdec
      exact ⟨i, rfl, opcodeOf_injective (hi.symm.trans hop)⟩
    | error e => exact absurd (hword.symm.trans (decode_error hdec)) nofun
  · rintro ⟨i, hdec, hi⟩
    obtain ⟨hword, -, hop⟩ := decode_ok hdec
    obtain ⟨hsel, -, hrreg⟩ := (wellFormedWord_iff_row hr (hi ▸ hop)).mp hword
    exact ⟨beq_iff_eq.mp hsel, hrreg⟩

/-- Settles O8: a row is selected by words of its own opcode, where the table and the decoder agree;
and no two rows share an opcode. -/
theorem eachRowSelectsItsCommand : Obligations.EachRowSelectsItsCommand := by
  refine ⟨fun r hr w => row_selects_iff_decodes hr w, fun r q hr hq w hrw hqw => ?_⟩
  refine opcodeTable_eq_of_opcode r hr q hq ?_
  rw [opcodeTable_opcode hr, opcodeTable_opcode hq, ← fieldOpcode_of_selects hr hrw,
    ← fieldOpcode_of_selects hq hqw]

end Sys2Proof

/-! ## Assembler (30_encoding R77, R79) -/

namespace Sys2Proof.Machine

/-! ### Operands and their fields -/

/-- A number that a field takes is the field's value: nothing was truncated. -/
theorem toNat_of_field_number {n v : Nat} {x : BitVec n}
    (h : (AsmOperand.number v).field n = some x) : x.toNat = v := by
  by_cases hv : v < 2 ^ n
  · cases (if_pos hv).symm.trans h
    rw [BitVec.toNat_ofNat, Nat.mod_eq_of_lt hv]
  · exact nomatch (if_neg hv).symm.trans h

/-- A field's own value fits it. -/
@[simp] theorem field_number_toNat {n : Nat} (x : BitVec n) :
    (AsmOperand.number x.toNat).field n = some x :=
  (if_pos x.isLt).trans (by rw [BitVec.ofNat_toNat, BitVec.setWidth_eq])

@[simp] theorem selectorField_number_toNat (sel : Byte) :
    (AsmOperand.number sel.toNat).selectorField = some sel :=
  field_number_toNat sel

theorem operand_of_map_field {n v : Nat} {mk : BitVec n → Instr} {i : Instr}
    (h : ((AsmOperand.number v).field n).map mk = some i) : ∃ x, mk x = i ∧ x.toNat = v := by
  obtain ⟨x, hx, hi⟩ := Option.map_eq_some_iff.mp h
  exact ⟨x, hi, toNat_of_field_number hx⟩

theorem operand_of_bind_field {n v : Nat} {f : BitVec n → Option Instr} {i : Instr}
    (h : ((AsmOperand.number v).field n).bind f = some i) : ∃ x, f x = some i ∧ x.toNat = v := by
  obtain ⟨x, hx, hi⟩ := Option.bind_eq_some_iff.mp h
  exact ⟨x, hi, toNat_of_field_number hx⟩

/-! ### The obligations -/

/-- A line assembles only with its mnemonic's number of operands, each of them a field's value. -/
theorem assemble_exact {m : Mnemonic} {ns : List Nat} {i : Instr}
    (h : assemble m (ns.map .number) = some i) : i.mnemonic = m ∧ operandsOf i = ns := by
  cases m with
  | NOP | CKCLR | CKGET | FRPOP | DFSTART | DFEND =>
    match ns, h with
    | [], rfl => exact ⟨rfl, rfl⟩
  | WCTRL | WBASE | RREG | MEMRD | CKADD | CKVFY | AENC | CTOA | CTOI | FRSTART | DFPUSH =>
    match ns, h with
    | [_], h =>
      obtain ⟨x, rfl, rfl⟩ := operand_of_map_field h
      exact ⟨rfl, rfl⟩
  | MEMWR =>
    match ns, h with
    | [_, _], h =>
      obtain ⟨addr, hd, rfl⟩ := operand_of_bind_field h
      obtain ⟨d, rfl, rfl⟩ := operand_of_map_field hd
      exact ⟨rfl, rfl⟩
  | ADEC =>
    match ns, h with
    | [_, _, _], h =>
      obtain ⟨x, hy, rfl⟩ := operand_of_bind_field h
      obtain ⟨y, hz, rfl⟩ := operand_of_bind_field hy
      obtain ⟨z, rfl, rfl⟩ := operand_of_map_field hz
      exact ⟨rfl, rfl⟩

/-- Settles O11: each operand that a line's field takes is the field's value, and each operand of a
term fits its own field. -/
theorem assemblerNeverTruncates : Obligations.AssemblerNeverTruncates := by
  refine ⟨fun _ _ _ => assemble_exact, fun i => ?_⟩
  cases i <;> simp [assemble, operandsOf, Instr.mnemonic]

/-- Settles O10: the lines and the words are evaluated; each illegal word is one the decoder
rejects, so its answer does not depend on the state. -/
theorem decodesTheExampleWords : Obligations.DecodesTheExampleWords := by
  refine ⟨by decide, rfl, rfl, rfl, rfl, rfl, rfl, rfl, rfl, rfl, rfl, rfl, rfl, rfl,
    fun w hw s => ?_⟩
  have hrejected : ([0x00000001, 0x01000002, 0x0300000D, 0x02200000, 0x09000001, 0x04000000,
      0xFF000000] : List Word).all (fun w => !wellFormedWord w) = true := by decide
  have hw' : wellFormedWord w = false := by simpa using List.all_eq_true.mp hrejected w hw
  exact (illegalWordsAnswerIllegal w s).1 hw'

end Sys2Proof.Machine

/-! ## Reset and the command port (70_reset R300, R301; 00_scope R11) -/

namespace Sys2Proof.Machine

theorem step_of_nil {s : State} (h : s.inputs = []) : step s = .next s := by
  simp only [step, runNext, h]

theorem step_of_cons {s : State} {x : HostInput} {rest : List HostInput}
    (h : s.inputs = x :: rest) : step s = runInput x { s with inputs := rest } := by
  simp only [step, runNext, h]

theorem runInput_reset {x : HostInput} (h : x.rst = true) (s : State) :
    runInput x s = .next s.applyReset :=
  if_pos h

theorem runInput_idle {x : HostInput} (hrst : x.rst = false) (hvalid : x.cmdValid = false)
    (s : State) : runInput x s = .next s :=
  (if_neg (Bool.eq_false_iff.mp hrst)).trans (if_neg (Bool.eq_false_iff.mp hvalid))

theorem runInput_command (w : Word) (s : State) :
    runInput (HostInput.command w) s = runCommand w s := rfl

/-- Settles O1: the reset state holds the values, and every register reads 0 there. -/
theorem resetHoldsTheListedValues : Obligations.ResetHoldsTheListedValues := by
  refine ⟨rfl, rfl, rfl, rfl, rfl, rfl, rfl, rfl, rfl, rfl, rfl, rfl, rfl, fun sel hsel => ?_⟩
  have hzeros : State.reset.registerValues = List.replicate 13 0 := rfl
  have hread : State.reset.readRegister sel = some 0#32 := by
    rw [State.readRegister_eq, hzeros, List.getElem?_replicate_of_lt (by omega)]
    rfl
  exact exec_rreg_of_some hread

/-- Settles O2: an entry with `rst` is the reset of the state, whatever command it presents. -/
theorem resetAssertedKeepsRamAndAcceptsNothing :
    Obligations.ResetAssertedKeepsRamAndAcceptsNothing := by
  intro s x rest hinputs hrst
  have hstat : State.reset.dfStat = 0 := rfl
  refine ⟨?_, _, (step_of_cons hinputs).trans (runInput_reset hrst _),
    rfl, rfl, rfl, rfl, rfl, rfl, hstat, rfl, rfl, rfl, rfl, rfl, rfl, rfl, fun _ => rfl⟩
  simp only [State.cmdReady, hinputs, hrst, Bool.not_true]

/-- Settles O3: the entry is taken off and its word runs; what that is, the decoder says. -/
theorem stepRunsTheDecodedCommand : Obligations.StepRunsTheDecodedCommand := by
  intro s w rest hinputs
  have hstep := (step_of_cons hinputs).trans (runInput_command w _)
  exact ⟨hstep, fun i hdec => hstep.trans (runCommand_ok hdec _),
    fun hword => hstep.trans ((illegalWordsAnswerIllegal w _).1 hword)⟩

/-- Settles O5: with no entry, or with one that presents nothing, no command runs. -/
theorem noCommandLeavesTheBlockIdle : Obligations.NoCommandLeavesTheBlockIdle := by
  refine fun s => ⟨step_of_nil, fun x rest hinputs hrst hvalid => ?_⟩
  exact (step_of_cons hinputs).trans (runInput_idle hrst hvalid _)

end Sys2Proof.Machine

/-! ## The checksum of a byte sequence (42_checksum R135; 30_encoding R78) -/

namespace Sys2Proof.Machine

theorem checksum_sumBytes_toNat (bs : List Byte) :
    (checksum (sumBytes bs)).toNat = (128 - natSum bs % 128) % 128 := by
  rw [checksum_toNat, sumBytes_toNat, Nat.mod_mod_of_dvd _ (by decide)]

theorem natSum_add_checksum_mod (bs : List Byte) :
    (natSum bs + (checksum (sumBytes bs)).toNat) % 128 = 0 := by
  rw [checksum_sumBytes_toNat]
  omega

theorem natSum_perm {xs ys : List Byte} (h : xs.Perm ys) : natSum xs = natSum ys :=
  (h.map BitVec.toNat).sum_nat

/-- Settles O23: every law is the checksum's number read modulo 128. -/
theorem checksumLaws : Obligations.ChecksumLaws := by
  refine ⟨fun x => ?_, fun s s' h => ?_⟩
  · have hsum := sumBytes_toNat x
    have hck := checksum_sumBytes_toNat x
    refine ⟨hsum, by omega, natSum_add_checksum_mod x, by omega, hck, fun y hxy => ?_⟩
    rw [checksum_eq_iff, hck, sumBytes_toNat, natSum_perm hxy, Nat.mod_mod_of_dvd _ (by decide)]
  · rw [checksum_eq_iff, checksum_toNat, h]

theorem runInstrs_cons {i : Instr} {s t : State} (h : exec i s = .next t) (is : List Instr) :
    runInstrs (i :: is) s = runInstrs is t := by
  rw [runInstrs, h]

/-- The CKADDs add the bytes one by one, and CKGET folds what they leave. -/
theorem runInstrs_ckadds_ckget (bs : List Byte) (s : State) :
    runInstrs (bs.map .ckadd ++ [.ckget]) s =
      some (State.respond { s with ckacc := s.ckacc + sumBytes bs }
        ((checksum (s.ckacc + sumBytes bs)).setWidth 32) .ok) := by
  induction bs generalizing s with
  | nil =>
    rw [sumBytes_nil, BitVec.add_zero]
    rfl
  | cons b bs ih =>
    rw [List.map_cons, List.cons_append, runInstrs_cons rfl, ih, sumBytes_cons, ← BitVec.add_assoc]
    rfl

/-- Settles O24: CKCLR starts the sum at 0. -/
theorem ckseqComputesTheChecksum : Obligations.CkseqComputesTheChecksum := by
  intro bs s
  have hacc : BitVec.ofNat 8 (natSum bs) = sumBytes bs := by
    rw [BitVec.toNat_eq, sumBytes_toNat, BitVec.toNat_ofNat]
  rw [ckseq, List.append_assoc, List.singleton_append, runInstrs_cons rfl, runInstrs_ckadds_ckget,
    hacc, ← checksum_sumBytes_toNat, BitVec.ofNat_toNat, State.respond_ckacc, BitVec.zero_add]
  rfl

end Sys2Proof.Machine

/-! ## The address of a triple (43_address R153; 20_memory R52) -/

namespace Sys2Proof.Machine

theorem tripleInRange_iff (h m l : Byte) :
    tripleInRange h m l = true ↔ ¬ (0x7F < h.toNat ∨ 0x7F < m.toNat ∨ 0x7F < l.toNat) := by
  simp [tripleInRange, BitVec.le_def, and_assoc]

/-- Components of 7 bits do not overlap in the address. -/
theorem decodeTriple_toNat {h m l : Byte} (hm : m.toNat ≤ 0x7F) (hl : l.toNat ≤ 0x7F) :
    (decodeTriple h m l).toNat = h.toNat * 2 ^ 14 + m.toNat * 2 ^ 7 + l.toNat := by
  have hshift (x : Byte) {k : Nat} (hk : k ≤ 14) :
      (x.setWidth 32 <<< k).toNat = x.toNat <<< k := by
    rw [BitVec.toNat_shiftLeft, BitVec.toNat_setWidth_of_le (by decide), Nat.mod_eq_of_lt]
    have := Nat.mul_le_mul (Nat.le_of_lt x.isLt) (Nat.pow_le_pow_right (n := 2) (by decide) hk)
    rw [Nat.shiftLeft_eq]
    omega
  have hlow : m.toNat <<< 7 ||| l.toNat = m.toNat <<< 7 + l.toNat :=
    (Nat.shiftLeft_add_eq_or_of_lt (by omega) _).symm
  have hfits : m.toNat <<< 7 + l.toNat < 2 ^ 14 := by omega
  rw [decodeTriple, BitVec.or_assoc, BitVec.toNat_or, BitVec.toNat_or, hshift h (by decide),
    hshift m (by decide), BitVec.toNat_setWidth_of_le (by decide), hlow,
    ← Nat.shiftLeft_add_eq_or_of_lt hfits]
  omega

theorem enc21_inRange (a : BitVec 21) :
    (enc21 a).h.toNat ≤ 0x7F ∧ (enc21 a).m.toNat ≤ 0x7F ∧ (enc21 a).l.toNat ≤ 0x7F := by
  rw [enc21_h_toNat, enc21_m_toNat, enc21_l_toNat]
  omega

theorem decodeTriple_enc21 (a : BitVec 21) :
    decodeTriple (enc21 a).h (enc21 a).m (enc21 a).l = BitVec.ofNat 32 a.toNat := by
  obtain ⟨-, hm, hl⟩ := enc21_inRange a
  rw [BitVec.toNat_eq, decodeTriple_toNat hm hl, enc21_h_toNat, enc21_m_toNat, enc21_l_toNat,
    BitVec.toNat_ofNat]
  omega

theorem enc21_decodeTriple {h m l : Byte} (hh : h.toNat ≤ 0x7F) (hm : m.toNat ≤ 0x7F)
    (hl : l.toNat ≤ 0x7F) : enc21 ((decodeTriple h m l).setWidth 21) = ⟨h, m, l⟩ := by
  have ha : ((decodeTriple h m l).setWidth 21).toNat
      = h.toNat * 2 ^ 14 + m.toNat * 2 ^ 7 + l.toNat := by
    rw [BitVec.toNat_setWidth, decodeTriple_toNat hm hl]
    omega
  generalize (decodeTriple h m l).setWidth 21 = a at ha ⊢
  show Triple.mk (enc21 a).h (enc21 a).m (enc21 a).l = ⟨h, m, l⟩
  rw [Triple.mk.injEq, BitVec.toNat_eq, BitVec.toNat_eq, BitVec.toNat_eq, enc21_h_toNat,
    enc21_m_toNat, enc21_l_toNat, ha]
  omega

theorem exec_adec_of_inRange {h m l : Byte} (hr : tripleInRange h m l = true) (s : State) :
    exec (.adec h m l) s = .next (s.respond (decodeTriple h m l) .ok) :=
  if_pos hr

theorem exec_adec_of_outOfRange {h m l : Byte} (hr : ¬ tripleInRange h m l = true) (s : State) :
    exec (.adec h m l) s = .next (s.raise .addrRange) :=
  if_neg hr

/-- Settles O26: a triple in range is the base-128 digits of its address, and Enc21 gives digits. -/
theorem adecDecodesTheTriple : Obligations.AdecDecodesTheTriple := by
  refine ⟨fun s h m l => ?_, fun s a => ?_, fun h m l => enc21_decodeTriple,
    fun w s hop => runCommand_ok (decode_adec_opcode hop) s⟩
  · by_cases hr : tripleInRange h m l = true
    · have hrange := (tripleInRange_iff h m l).mp hr
      rw [if_neg hrange, ← decodeTriple_toNat (by omega) (by omega), BitVec.ofNat_toNat,
        BitVec.setWidth_eq]
      exact exec_adec_of_inRange hr s
    · rw [if_pos (not_not.mp (mt (tripleInRange_iff h m l).mpr hr))]
      exact exec_adec_of_outOfRange hr s
  · have hr : tripleInRange (enc21 a).h (enc21 a).m (enc21 a).l = true := by
      have hrange := enc21_inRange a
      exact (tripleInRange_iff _ _ _).mpr (by omega)
    rw [← decodeTriple_enc21]
    exact exec_adec_of_inRange hr s

theorem isReverb_iff (h m : Byte) :
    isReverb h m = true ↔ 3 < h.toNat ∨ h.toNat = 3 ∧ 0x60 ≤ m.toNat := by
  simp [isReverb, BitVec.lt_def, BitVec.le_def, BitVec.toNat_eq]

/-- R226 compares the triple's high and mid byte, so an address against 0xF000. -/
theorem isReverb_enc21_iff (a : BitVec 21) :
    isReverb (enc21 a).h (enc21 a).m = true ↔ 0xF000 ≤ a.toNat := by
  rw [isReverb_iff, enc21_h_toNat, enc21_m_toNat]
  omega

theorem bankAddress_toNat {off : Nat} (h : off < 0x8780) :
    (0x8000 + BitVec.ofNat 21 off).toNat = 0x8000 + off := by
  rw [BitVec.toNat_add, BitVec.toNat_ofNat, show (0x8000 : BitVec 21).toNat = 0x8000 from rfl]
  omega

/-- Settles O37: 0xF000 is the bank's base plus 0x7000. -/
theorem reverbBoundaryIsTheRamBoundary : Obligations.ReverbBoundaryIsTheRamBoundary := by
  intro off hoff a
  rw [isReverb_enc21_iff, bankAddress_toNat hoff]
  omega

end Sys2Proof.Machine

/-! ## The transcoder's round trips (44_charset R176) -/

namespace Sys2Proof.Machine

theorem toCode_toAscii {c : Byte} (h : c.toNat < 64) : (toAscii c).map toCode = some c := by
  have hlen : Config.charTable.length = 64 := rfl
  obtain ⟨ch, hch⟩ : ∃ ch, Config.charTable[c.toNat]? = some ch :=
    ⟨_, List.getElem?_eq_getElem (hlen ▸ h)⟩
  have hcode : toCode ch = c := BitVec.eq_of_toNat_eq (toCode_toNat_of_getElem? hch)
  rw [toAscii_eq_getElem?, hch, Option.map_some, hcode]

/-- Settles O29: ToCode numbers the table's characters, ToAscii looks the number up, and 63 is the
number of every other byte. -/
theorem transcoderLaws : Obligations.TranscoderLaws := by
  refine ⟨fun c => toCode_toAscii, fun ch => ?_, fun c => toAscii_of_le⟩
  by_cases hmem : ch ∈ Config.charTable
  · obtain ⟨c, hc⟩ := List.mem_iff_getElem?.mp hmem
    rw [if_pos hmem, toAscii_eq_getElem?, toCode_toNat_of_getElem? hc, hc]
  · rw [if_neg hmem, toCode_of_not_mem hmem]
    rfl

end Sys2Proof.Machine

/-! ## Buffering a byte (46_deframer R221, R222) -/

namespace Sys2Proof.Machine

theorem exec_dfpush_of_room {s : State} {b : Byte} (herr : s.dfErr = .ok) (hb : b ≠ 0xF7)
    (hlen : s.dfMlen.toNat < 265) :
    exec (.dfpush b) s = .next (State.respond
      (State.mbufWrite { s with dfMlen := s.dfMlen + 1 } s.dfMlen.toNat b) 0#32 .ok) := by
  obtain ⟨h, -⟩ | ⟨-, -, h, -⟩ | ⟨-, h, -⟩ | ⟨-, -, -, hnext⟩ | ⟨-, h, -⟩ := execDfpush_cases s b
  case inr.inr.inr.inl => exact hnext
  · exact absurd herr h
  · omega
  · omega
  · exact absurd h hb

/-- Settles O40: the byte is written at DF_MLEN, so the laws of a buffer write say what every index
reads. -/
theorem dfpushBuffersAByte : Obligations.DfpushBuffersAByte := by
  refine ⟨fun s b herr hb hlen => ?_, wordsB_of_decode_ok fun _ => decode_dfpush_opcode⟩
  refine ⟨_, exec_dfpush_of_room herr hb hlen, ?_, State.mbufRead_mbufWrite_same _ _ _,
    fun i hi => State.mbufRead_mbufWrite_other _ b hi, fun _ => rfl⟩
  have hcount : s.dfMlen + 1 = BitVec.ofNat 9 (s.dfMlen.toNat + 1) := by bv_omega
  rw [← hcount]
  rfl

end Sys2Proof.Machine

/-! ## What a command can do: its effect, or the model's own stop (log entry 8) -/

namespace Sys2Proof.Machine

/-- The command raises this code by its own rule; CKSUM only while STRICT is set (60_exceptions
R260). The code ILLEGAL is left to the terms no word stands for (log entry 10). -/
def Raises (s : State) (i : Instr) : ErrorCode → Prop
  | .ok => True
  | .header | .frameShort | .frameLong => i.mnemonic = .DFPUSH
  | .cksum => i.mnemonic = .DFPUSH ∧ s.ctrlStrict = true
  | .size | .trunc => i.mnemonic = .DFEND
  | .charRange => i.mnemonic = .CTOA
  | .addrRange => i.mnemonic = .ADEC
  | .lenRange => i.mnemonic = .FRSTART
  | .memRange => i.mnemonic = .MEMRD ∨ i.mnemonic = .MEMWR
  | .illegal => i.wellFormed = false

/-- The state a command leaves: the one before with the fields the command writes, and the response.
`answer` is a command that writes nothing else. -/
inductive Effect (s : State) : Instr → State → Prop
  | answer {i : Instr} {err : ErrorCode} (res : Word) (h : Raises s i err) :
      Effect s i (s.respond res err)
  | wctrl (b : Byte) (strict : Bool) :
      Effect s (.wctrl b) (State.respond { s with ctrlStrict := strict } 0#32 .ok)
  | wbase (imm21 : BitVec 21) :
      Effect s (.wbase imm21) (State.respond { s with abase := imm21 } 0#32 .ok)
  | ckclr : Effect s .ckclr (State.respond { s with ckacc := 0#8 } 0#32 .ok)
  | ckadd (b : Byte) (res : Word) :
      Effect s (.ckadd b) (State.respond { s with ckacc := s.ckacc + b } res .ok)
  | memwr {addr : BitVec 16} (d : Byte) (h : addr.toNat < 0x8780) :
      Effect s (.memwr addr d) ((s.ramWrite addr.toNat d).respond 0#32 .ok)
  | frstart {len : BitVec 24} (h : len.toNat ≤ 0x8780) (res : Word) :
      Effect s (.frstart len) (State.respond
        { s with
          frBase := s.abase
          frLen := BitVec.ofNat 16 len.toNat
          frPos := 0
          frSum := 0
          frCend := 0
          frPhase := if len.toNat = 0 then .idle else .h0 } res .ok)
  | frpop {t : State} (h : exec .frpop s = .next t) : Effect s .frpop t
  | dfstart : Effect s .dfstart (State.respond
      { s with
        dfMlen := 0, dfPcnt := 0, dfRcnt := 0, dfErr := .ok, pOvf := false, rOvf := false
        ckWarn := false } 0#32 .ok)
  | dfpush {b : Byte} {t : State} (h : exec (.dfpush b) s = .next t) : Effect s (.dfpush b) t
  | dfend {err : ErrorCode} (hsticky : s.dfErr ≠ .ok → err = s.dfErr)
      (hcheck : s.dfErr = .ok → err = .ok ∨ err = .trunc ∨ err = .size) :
      Effect s .dfend (State.respond { s with dfErr := err } s.dfCounts err)

/-- The two stops: FRPOP past the RAM and DFPUSH past the buffer. -/
inductive Stops (s : State) : Instr → Fault → Prop
  | frpop (hphase : s.frPhase = .data) (hpos : 0x8780 ≤ s.frPos.toNat) :
      Stops s .frpop (.noSuchRamByte s.frPos.toNat)
  | dfpush (b : Byte) (herr : s.dfErr = .ok) (hlen : 266 ≤ s.dfMlen.toNat) :
      Stops s (.dfpush b) (.noSuchBufferByte s.dfMlen.toNat)

theorem rregSelectorOk_of_readRegister_none {s : State} {sel : Byte}
    (h : s.readRegister sel = none) : rregSelectorOk sel = false := by
  refine decide_eq_false fun hle => ?_
  have hlisted : sel.toNat < s.registerValues.length := Nat.lt_succ_of_le hle
  rw [State.readRegister_eq, List.getElem?_eq_getElem hlisted] at h
  exact nomatch h

/-- Every command has its effect or stops. -/
theorem exec_outcome (i : Instr) (s : State) :
    (∃ t, exec i s = .next t ∧ Effect s i t) ∨ ∃ r, exec i s = .fault r ∧ Stops s i r := by
  cases i with
  | nop => exact .inl ⟨_, rfl, .answer (err := .ok) _ trivial⟩
  | wctrl b =>
    cases hb : wctrlOperandOk b with
    | true => exact .inl ⟨_, exec_wctrl_of_le_one (of_decide_eq_true hb) s, .wctrl b _⟩
    | false => exact .inl ⟨_, exec_wctrl_of_refused hb s, .answer (err := .illegal) _ hb⟩
  | wbase imm21 => exact .inl ⟨_, rfl, .wbase imm21⟩
  | rreg sel =>
    cases hread : s.readRegister sel with
    | some v => exact .inl ⟨_, exec_rreg_of_some hread, .answer (err := .ok) _ trivial⟩
    | none =>
      exact .inl ⟨_, exec_rreg_of_none hread,
        .answer (err := .illegal) _ (rregSelectorOk_of_readRegister_none hread)⟩
  | memwr addr d =>
    by_cases h : addr.toNat < 0x8780
    · exact .inl ⟨_, exec_memwr_of_lt_ramSize h d s, .memwr d h⟩
    · exact .inl ⟨_, exec_memwr_of_ramSize_le (Nat.not_lt.mp h) d s,
        .answer (err := .memRange) _ (.inr rfl)⟩
  | memrd addr =>
    by_cases h : addr.toNat < 0x8780
    · exact .inl ⟨_, exec_memrd_of_lt_ramSize h s, .answer (err := .ok) _ trivial⟩
    · exact .inl ⟨_, exec_memrd_of_ramSize_le (Nat.not_lt.mp h) s,
        .answer (err := .memRange) _ (.inl rfl)⟩
  | ckclr => exact .inl ⟨_, rfl, .ckclr⟩
  | ckadd b => exact .inl ⟨_, rfl, .ckadd b _⟩
  | ckget => exact .inl ⟨_, rfl, .answer (err := .ok) _ trivial⟩
  | ckvfy b => exact .inl ⟨_, ckvfyComparesAllEightBits.1 s b, .answer (err := .ok) _ trivial⟩
  | aenc imm21 => exact .inl ⟨_, rfl, .answer (err := .ok) _ trivial⟩
  | adec h m l =>
    by_cases hr : tripleInRange h m l = true
    · exact .inl ⟨_, exec_adec_of_inRange hr s, .answer (err := .ok) _ trivial⟩
    · exact .inl ⟨_, exec_adec_of_outOfRange hr s, .answer (err := .addrRange) _ rfl⟩
  | ctoa b =>
    cases hascii : toAscii b with
    | some ch => exact .inl ⟨_, exec_ctoa_of_some hascii s, .answer (err := .ok) _ trivial⟩
    | none => exact .inl ⟨_, exec_ctoa_of_none hascii s, .answer (err := .charRange) _ rfl⟩
  | ctoi b => exact .inl ⟨_, rfl, .answer (err := .ok) _ trivial⟩
  | frstart len =>
    by_cases h : len.toNat ≤ 0x8780
    · exact .inl ⟨_, exec_frstart_of_le_ramSize h s, .frstart h _⟩
    · exact .inl ⟨_, exec_frstart_of_ramSize_lt (Nat.not_le.mp h) s,
        .answer (err := .lenRange) _ rfl⟩
  | frpop =>
    obtain ⟨t, hnext, -⟩ | ⟨hphase, hpos, hfault⟩ := execFrpop_cases s
    · exact .inl ⟨t, hnext, .frpop hnext⟩
    · exact .inr ⟨_, hfault, .frpop hphase hpos⟩
  | dfstart => exact .inl ⟨_, rfl, .dfstart⟩
  | dfpush b =>
    obtain ⟨-, h⟩ | ⟨-, -, -, h⟩ | ⟨herr, hlen, h⟩ | ⟨-, -, -, h⟩ | ⟨-, -, -, h⟩ :=
      execDfpush_cases s b
    case inr.inr.inl => exact .inr ⟨_, h, .dfpush b herr hlen⟩
    all_goals exact .inl ⟨_, h, .dfpush h⟩
  | dfend =>
    obtain ⟨err, hnext, hsticky, hcheck⟩ := execDfend_next s
    exact .inl ⟨_, hnext, .dfend hsticky hcheck⟩

theorem exec_effect {i : Instr} {s t : State} (h : exec i s = .next t) : Effect s i t := by
  obtain ⟨u, hnext, heffect⟩ | ⟨r, hfault, -⟩ := exec_outcome i s
  · cases hnext.symm.trans h
    exact heffect
  · exact nomatch hfault.symm.trans h

theorem exec_stops {i : Instr} {s : State} {r : Fault} (h : exec i s = .fault r) : Stops s i r := by
  obtain ⟨u, hnext, -⟩ | ⟨q, hfault, hstops⟩ := exec_outcome i s
  · exact nomatch hnext.symm.trans h
  · cases hfault.symm.trans h
    exact hstops

end Sys2Proof.Machine

/-! ## What each command writes (10_state R22; 60_exceptions R260) -/

namespace Sys2Proof.Machine

/-! ### The deframer's frame -/

/-- Completing a message writes RAM, the counts, DF_ERR, the flags and the response. -/
theorem State.completeMessage_frame (s : State) (len : Nat) :
    s.completeMessage len =
      { s with
        ram := (s.completeMessage len).ram
        dfPcnt := (s.completeMessage len).dfPcnt
        dfRcnt := (s.completeMessage len).dfRcnt
        dfErr := (s.completeMessage len).dfErr
        pOvf := (s.completeMessage len).pOvf
        rOvf := (s.completeMessage len).rOvf
        ckWarn := (s.completeMessage len).ckWarn
        rspValid := true
        rspRes := (s.completeMessage len).rspRes
        rspErr := (s.completeMessage len).rspErr } := by
  obtain ⟨-, e⟩ | ⟨-, -, e⟩ | ⟨-, -, -, -, e⟩ | ⟨-, -, -, -, e⟩ | ⟨-, -, -, e⟩ :=
    s.completeMessage_cases len <;> rw [e]
  case inr.inr.inr.inl | inr.inr.inr.inr => rw [State.acceptMessage_frame]
  all_goals rfl

/-- DFPUSH writes the deframer's registers, the buffer, RAM and the response. -/
theorem exec_dfpush_frame {s t : State} {b : Byte} (h : exec (.dfpush b) s = .next t) :
    t = { s with
      dfMlen := t.dfMlen
      dfMbuf := t.dfMbuf
      ram := t.ram
      dfPcnt := t.dfPcnt
      dfRcnt := t.dfRcnt
      dfErr := t.dfErr
      pOvf := t.pOvf
      rOvf := t.rOvf
      ckWarn := t.ckWarn
      rspValid := true
      rspRes := t.rspRes
      rspErr := t.rspErr } := by
  obtain ⟨-, e⟩ | ⟨-, -, -, e⟩ | ⟨-, -, e⟩ | ⟨-, -, -, e⟩ | ⟨-, -, -, e⟩ := execDfpush_cases s b <;>
    cases e.symm.trans h
  case inr.inr.inr.inr => rw [State.completeMessage_frame]; rfl
  all_goals rfl

/-- FRPOP's frame: `execFrpop_cases` for a next state. -/
theorem exec_frpop_frame {s t : State} (h : exec .frpop s = .next t) :
    t = { s with
      frPhase := t.frPhase
      frSum := t.frSum
      frPos := t.frPos
      frCend := t.frCend
      rspValid := true
      rspRes := t.rspRes
      rspErr := .ok } := by
  obtain ⟨u, hnext, hu⟩ | ⟨-, -, hfault⟩ := execFrpop_cases s
  · cases hnext.symm.trans h
    exact hu
  · exact nomatch hfault.symm.trans h

/-! ### The registers -/

/-- Settles O57: each effect writes the fields its command is listed for. -/
theorem registersWrittenByTheirCommandsOnly : Obligations.RegistersWrittenByTheirCommandsOnly := by
  intro i s t h
  cases exec_effect h with
  | frpop h =>
    rw [exec_frpop_frame h]
    simp [Instr.mnemonic]
  | dfpush h =>
    rw [exec_dfpush_frame h]
    simp [Instr.mnemonic]
  | _ => simp [Instr.mnemonic]

theorem exec_inputs {i : Instr} {s t : State} (h : exec i s = .next t) : t.inputs = s.inputs := by
  obtain ⟨-, -, -, -, -, -, -, -, -, -, hinputs⟩ := registersWrittenByTheirCommandsOnly i s t h
  exact hinputs

theorem exec_ram {i : Instr} {s t : State} (h : exec i s = .next t)
    (hi : i.mnemonic ≠ .MEMWR ∧ i.mnemonic ≠ .DFPUSH) : t.ram = s.ram := by
  obtain ⟨-, -, -, -, -, -, -, -, -, hram, -⟩ := registersWrittenByTheirCommandsOnly i s t h
  by_contra hne
  exact (hram hne).elim hi.1 hi.2

/-- Every command that ends in a next state has answered. -/
theorem exec_rspValid {i : Instr} {s t : State} (h : exec i s = .next t) : t.rspValid = true := by
  cases exec_effect h with
  | frpop h => rw [exec_frpop_frame h]
  | dfpush h => rw [exec_dfpush_frame h]
  | _ => rfl

/-! ### The error codes -/

theorem State.completeMessage_raises (s : State) (len : Nat) (b : Byte) :
    Raises s (.dfpush b) (s.completeMessage len).rspErr := by
  obtain ⟨-, e⟩ | ⟨-, -, e⟩ | ⟨-, -, -, hstrict, e⟩ | ⟨-, -, -, -, e⟩ | ⟨-, -, -, e⟩ :=
    s.completeMessage_cases len <;> rw [e]
  case inr.inr.inl => exact ⟨rfl, hstrict⟩
  case inr.inr.inr.inl | inr.inr.inr.inr => exact trivial
  all_goals rfl

/-- A command ends with a code its own rule raises, or DFPUSH or DFEND with the one DF_ERR holds. -/
theorem exec_raises {i : Instr} {s t : State} (h : exec i s = .next t) :
    Raises s i t.rspErr ∨ s.dfErr = t.rspErr ∧ (i.mnemonic = .DFPUSH ∨ i.mnemonic = .DFEND) := by
  cases exec_effect h with
  | answer res hraises => exact .inl hraises
  | frpop h =>
    rw [exec_frpop_frame h]
    exact .inl trivial
  | @dfpush b _ h =>
    obtain ⟨-, e⟩ | ⟨-, -, -, e⟩ | ⟨-, -, e⟩ | ⟨-, -, -, e⟩ | ⟨-, -, -, e⟩ :=
      execDfpush_cases s b <;> cases e.symm.trans h
    · exact .inr ⟨rfl, .inl rfl⟩
    · exact .inl rfl
    · exact .inl trivial
    · exact .inl (State.completeMessage_raises _ _ b)
  | dfend hsticky hcheck =>
    by_cases herr : s.dfErr = .ok
    · obtain rfl | rfl | rfl := hcheck herr
      · exact .inl trivial
      · exact .inl rfl
      · exact .inl rfl
    · exact .inr ⟨(hsticky herr).symm, .inr rfl⟩
  | _ => exact .inl trivial

/-- Settles O59: the numbers by evaluation; each code is one the command raises or DF_ERR's, and no
well-formed command raises ILLEGAL. -/
theorem errorCodesAreRaisedByTheirCommands : Obligations.ErrorCodesAreRaisedByTheirCommands := by
  refine ⟨by decide, fun i s t hi h => ?_⟩
  intro m sticky
  have hcode {e : ErrorCode} (he : t.rspErr = e) : Raises s i e ∨ sticky e := he ▸ exec_raises h
  refine ⟨hcode, hcode, hcode, hcode, hcode, hcode, hcode, hcode, hcode, fun he => ?_, fun he => ?_⟩
  · exact or_assoc.mp (hcode he)
  · exact (hcode he).resolve_left fun hbad => nomatch hi.symm.trans hbad

/-! ### The stops -/

theorem exec_ne_refused (i : Instr) (s : State) (q : Refusal) : exec i s ≠ .refused q := by
  obtain ⟨t, h, -⟩ | ⟨r, h, -⟩ := exec_outcome i s <;> rw [h] <;> exact nofun

theorem exec_frpop_past_ram {s : State} (hphase : s.frPhase = .data)
    (hpos : 0x8780 ≤ s.frPos.toNat) :
    exec .frpop s = .fault (.noSuchRamByte s.frPos.toNat) := by
  simp only [exec, execFrpop, hphase]
  exact if_neg (Nat.not_lt.mpr hpos)

theorem exec_dfpush_past_buffer {s : State} (b : Byte) (herr : s.dfErr = .ok)
    (hlen : 266 ≤ s.dfMlen.toNat) :
    exec (.dfpush b) s = .fault (.noSuchBufferByte s.dfMlen.toNat) := by
  have hfull : ¬ (b ≠ Config.eox ∧ s.dfMlen.toNat = Config.msgMax - 1) := by
    rintro ⟨-, h⟩
    exact absurd (h ▸ hlen) (by decide)
  exact (if_neg (not_not_intro herr)).trans ((if_neg hfull).trans (if_pos hlen))

/-- No state of the invariant stops a command (10_state R34). -/
theorem Stops.not_inv {s : State} {i : Instr} {r : Fault} (h : Stops s i r) : ¬ s.Inv := by
  intro hinv
  cases h with
  | frpop hphase hpos =>
    have hf := hinv.framer
    have hlen := hinv.len_le
    simp only [State.framerInv, hphase] at hf
    omega
  | dfpush b herr hlen => exact absurd hinv.mlen_le (by omega)

/-- Settles O56: a fault is one of the two stops, and each stop's state faults. -/
theorem stopsOnlyWhereNoByteExists : Obligations.StopsOnlyWhereNoByteExists := by
  refine fun i s r => ⟨⟨fun h => ?_, ?_⟩, fun h => (exec_stops h).not_inv, exec_ne_refused i s⟩
  · cases exec_stops h with
    | frpop hphase hpos => exact .inl ⟨rfl, hphase, hpos, rfl⟩
    | dfpush b herr hlen => exact .inr ⟨b, rfl, herr, hlen, rfl⟩
  · rintro (⟨rfl, hphase, hpos, rfl⟩ | ⟨b, rfl, herr, hlen, rfl⟩)
    · exact exec_frpop_past_ram hphase hpos
    · exact exec_dfpush_past_buffer b herr hlen

/-- In a state of the invariant every command ends in a next state. -/
theorem State.Inv.exec_next {s : State} (h : s.Inv) (i : Instr) : ∃ t, exec i s = .next t := by
  obtain ⟨t, hnext, -⟩ | ⟨r, -, hstops⟩ := exec_outcome i s
  · exact ⟨t, hnext⟩
  · exact absurd h hstops.not_inv

/-! ### Runs of commands -/

theorem runInstrs_append (is js : List Instr) (s : State) :
    runInstrs (is ++ js) s = (runInstrs is s).bind (runInstrs js) := by
  induction is generalizing s with
  | nil => rfl
  | cons i is ih =>
    rw [List.cons_append, runInstrs, runInstrs]
    cases exec i s with
    | next t => exact ih t
    | fault r => rfl
    | refused q => rfl

theorem runInstrs_cons_eq_some {i : Instr} {is : List Instr} {s t : State} :
    runInstrs (i :: is) s = some t ↔ ∃ u, exec i s = .next u ∧ runInstrs is u = some t := by
  rw [runInstrs]
  cases exec i s with
  | next u => exact ⟨fun h => ⟨u, rfl, h⟩, fun ⟨_, hu, h⟩ => by cases hu; exact h⟩
  | fault r => exact ⟨nofun, fun ⟨_, hu, _⟩ => nomatch hu⟩
  | refused q => exact ⟨nofun, fun ⟨_, hu, _⟩ => nomatch hu⟩

theorem runInstrs_append_eq_some {is js : List Instr} {s t : State} :
    runInstrs (is ++ js) s = some t ↔ ∃ u, runInstrs is s = some u ∧ runInstrs js u = some t := by
  rw [runInstrs_append, Option.bind_eq_some_iff]

/-- Only MEMWR and DFPUSH write RAM (20_memory R51). -/
theorem runInstrs_ram {is : List Instr} {s t : State}
    (his : ∀ i ∈ is, i.mnemonic ≠ .MEMWR ∧ i.mnemonic ≠ .DFPUSH) (h : runInstrs is s = some t) :
    t.ram = s.ram := by
  induction is generalizing s with
  | nil => cases h; rfl
  | cons i is ih =>
    obtain ⟨u, hu, ht⟩ := runInstrs_cons_eq_some.mp h
    have hrest := ih (fun j hj => his j (List.mem_cons_of_mem i hj)) ht
    exact hrest.trans (exec_ram hu (his i List.mem_cons_self))

theorem State.ramRead_of_ram_eq {s t : State} (h : t.ram = s.ram) (a : Nat) :
    t.ramRead a = s.ramRead a := by
  rw [State.ramRead, h, State.ramRead]

/-- Settles O18: the commands between leave RAM as the MEMWR left it. -/
theorem writtenByteIsReadLater : Obligations.WrittenByteIsReadLater := by
  intro s t addr d is haddr his h
  have hwrite := exec_memwr_of_lt_ramSize haddr d s
  rw [List.append_assoc, List.singleton_append, runInstrs_cons hwrite] at h
  obtain ⟨u, hu, ht⟩ := runInstrs_append_eq_some.mp h
  rw [runInstrs_cons (exec_memrd_of_lt_ramSize haddr u)] at ht
  cases ht
  have hread : u.ramRead addr.toNat = d := by
    rw [State.ramRead_of_ram_eq (runInstrs_ram his hu), State.respond_ramRead,
      State.ramRead_ramWrite_same]
  rw [State.respond_rspErr, State.respond_rspRes, hread, BitVec.toNat_setWidth_of_le (by decide)]
  exact ⟨rfl, rfl⟩

end Sys2Proof.Machine

/-! ## The invariant (10_state R34) -/

namespace Sys2Proof.Machine

/-- Settles O51: at reset every count is 0, the framer is idle at 0 and both memories list
nothing. -/
theorem resetSatisfiesTheInvariant : Obligations.ResetSatisfiesTheInvariant where
  pcnt_le := by decide
  rcnt_le := by decide
  mlen_le := by decide
  pos_le := by decide
  len_le := by decide
  framer := rfl
  dfErr_code := rfl
  pOvf_full := nofun
  rOvf_full := nofun
  ram_wf := rfl
  ram_below := rfl
  mbuf_wf := rfl
  mbuf_below := rfl
  mbuf_held := fun i hi => absurd hi (Nat.not_lt_zero i)

/-! ### Writes that keep the invariant -/

section
variable {s : State}

/-- The invariant does not look at these fields. -/
theorem State.Inv.setOthers (h : s.Inv) (strict : Bool) (abase : BitVec 21) (ckacc : Byte)
    (warn : Bool) (inputs : List HostInput) (valid : Bool) (res : Word) (err : ErrorCode) :
    State.Inv { s with
      ctrlStrict := strict, abase := abase, ckacc := ckacc, ckWarn := warn, inputs := inputs
      rspValid := valid, rspRes := res, rspErr := err } :=
  ⟨h.pcnt_le, h.rcnt_le, h.mlen_le, h.pos_le, h.len_le, h.framer, h.dfErr_code, h.pOvf_full,
    h.rOvf_full, h.ram_wf, h.ram_below, h.mbuf_wf, h.mbuf_below, h.mbuf_held⟩

theorem State.Inv.respond (h : s.Inv) (res : Word) (err : ErrorCode) : (s.respond res err).Inv :=
  h.setOthers _ _ _ _ _ _ _ _

theorem State.Inv.setInputs (h : s.Inv) (inputs : List HostInput) :
    State.Inv { s with inputs := inputs } :=
  h.setOthers _ _ _ _ _ _ _ _

theorem State.Inv.setFramer (h : s.Inv) {phase : FramerPhase} {pos len : BitVec 16}
    {base : BitVec 21} {sum : Byte} {cend : BitVec 16} (hpos : pos.toNat ≤ len.toNat)
    (hlen : len.toNat ≤ 0x8780)
    (hframer : State.framerInv { s with
      frPhase := phase, frPos := pos, frLen := len, frBase := base, frSum := sum
      frCend := cend }) :
    State.Inv { s with
      frPhase := phase, frPos := pos, frLen := len, frBase := base, frSum := sum
      frCend := cend } :=
  ⟨h.pcnt_le, h.rcnt_le, h.mlen_le, hpos, hlen, hframer, h.dfErr_code, h.pOvf_full,
    h.rOvf_full, h.ram_wf, h.ram_below, h.mbuf_wf, h.mbuf_below, h.mbuf_held⟩

theorem State.Inv.setDfErr (h : s.Inv) {err : ErrorCode} (herr : err.deframer = true) :
    State.Inv { s with dfErr := err } :=
  ⟨h.pcnt_le, h.rcnt_le, h.mlen_le, h.pos_le, h.len_le, h.framer, herr, h.pOvf_full,
    h.rOvf_full, h.ram_wf, h.ram_below, h.mbuf_wf, h.mbuf_below, h.mbuf_held⟩

/-- A count and its overflow flag: a flag only on a full region. -/
theorem State.Inv.setCounts (h : s.Inv) {pcnt : BitVec 15} {rcnt : BitVec 13} {pOvf rOvf : Bool}
    (hp : pcnt.toNat ≤ 0x7000) (hr : rcnt.toNat ≤ 0x1780)
    (hpfull : pOvf = true → pcnt.toNat = 0x7000)
    (hrfull : rOvf = true → rcnt.toNat = 0x1780) :
    State.Inv { s with dfPcnt := pcnt, dfRcnt := rcnt, pOvf := pOvf, rOvf := rOvf } :=
  ⟨hp, hr, h.mlen_le, h.pos_le, h.len_le, h.framer, h.dfErr_code, hpfull, hrfull, h.ram_wf,
    h.ram_below, h.mbuf_wf, h.mbuf_below, h.mbuf_held⟩

theorem State.Inv.ramWrite (h : s.Inv) {a : Nat} (ha : a < 0x8780) (v : Byte) :
    (s.ramWrite a v).Inv :=
  ⟨h.pcnt_le, h.rcnt_le, h.mlen_le, h.pos_le, h.len_le, h.framer, h.dfErr_code, h.pOvf_full,
    h.rOvf_full, Memory.wf_store _ _ _ h.ram_wf, Memory.below_store _ _ _ _ ha h.ram_below,
    h.mbuf_wf, h.mbuf_below, h.mbuf_held⟩

theorem State.Inv.mbufWrite (h : s.Inv) {i : Nat} (hi : i < 266) (v : Byte) {n : BitVec 9}
    (hn : n.toNat ≤ 265)
    (hheld : ∀ k, k < n.toNat →
      ∃ b, Memory.lookup (Memory.store s.dfMbuf i v) k = some b ∧ b ≠ Config.eox) :
    State.Inv (State.mbufWrite { s with dfMlen := n } i v) :=
  ⟨h.pcnt_le, h.rcnt_le, hn, h.pos_le, h.len_le, h.framer, h.dfErr_code, h.pOvf_full,
    h.rOvf_full, h.ram_wf, h.ram_below, Memory.wf_store _ _ _ h.mbuf_wf,
    Memory.below_store _ _ _ _ hi h.mbuf_below, hheld⟩

theorem State.Inv.emptyBuffer (h : s.Inv) : State.Inv { s with dfMlen := 0 } :=
  ⟨h.pcnt_le, h.rcnt_le, Nat.zero_le _, h.pos_le, h.len_le, h.framer, h.dfErr_code, h.pOvf_full,
    h.rOvf_full, h.ram_wf, h.ram_below, h.mbuf_wf, h.mbuf_below,
    fun i hi => absurd hi (Nat.not_lt_zero i)⟩

end

/-! ### FRPOP -/

/-- The phase after one in which FRPOP changes neither FR_POS nor FR_CEND (10_state R26, 45_framer
R191). -/
def FramerPhase.succ? : FramerPhase → Option FramerPhase
  | .h0 => some .h1
  | .h1 => some .h2
  | .h2 => some .h3
  | .h3 => some .h4
  | .h4 => some .ah
  | .ah => some .am
  | .am => some .al
  | .ck => some .eox
  | .idle | .al | .data | .eox => none

theorem exec_frpop_succ {s : State} {p : FramerPhase} (h : s.frPhase.succ? = some p) :
    ∃ sum res, exec .frpop s =
      .next (State.respond { s with frPhase := p, frSum := sum } res .ok) := by
  cases hphase : s.frPhase <;> rw [hphase] at h <;> cases h
  case h0 => exact ⟨_, _, exec_frpop_h0 hphase⟩
  case h1 => exact ⟨_, _, exec_frpop_h1 hphase⟩
  case h2 => exact ⟨_, _, exec_frpop_h2 hphase⟩
  case h3 => exact ⟨_, _, exec_frpop_h3 hphase⟩
  case h4 => exact ⟨_, _, exec_frpop_h4 hphase⟩
  case ah => exact ⟨_, _, exec_frpop_ah hphase⟩
  case am => exact ⟨_, _, exec_frpop_am hphase⟩
  case ck => exact ⟨_, _, exec_frpop_ck hphase⟩

theorem State.chunkEnd_toNat (s : State) :
    s.chunkEnd.toNat = min (s.frPos.toNat + 256) s.frLen.toNat := by
  rw [State.chunkEnd, BitVec.toNat_ofNat, Config.chunkMax]
  omega

/-- The framer's position stays within its chunk and within FR_LEN in every phase (10_state R34). -/
theorem State.Inv.frpop {s t : State} (h : s.Inv) (hexec : exec .frpop s = .next t) : t.Inv := by
  have hf := h.framer
  have hpos := h.pos_le
  have hlen := h.len_le
  cases hphase : s.frPhase <;> simp only [State.framerInv, hphase] at hf
  case idle =>
    cases (exec_frpop_idle hphase).symm.trans hexec
    exact h.respond _ _
  case h0 | h1 | h2 | h3 | h4 | ah | am | ck =>
    obtain ⟨sum, res, hnext⟩ := exec_frpop_succ (s := s) (by rw [hphase]; rfl)
    cases hnext.symm.trans hexec
    refine (h.setFramer hpos hlen ?_).respond _ _
    exact hf
  case al =>
    cases (exec_frpop_al hphase).symm.trans hexec
    refine (h.setFramer hpos hlen ?_).respond _ _
    show s.frPos.toNat < s.chunkEnd.toNat
      ∧ s.chunkEnd.toNat = min (s.frPos.toNat / 256 * 256 + 256) s.frLen.toNat
    have hend := s.chunkEnd_toNat
    omega
  case data =>
    cases (exec_frpop_data hphase (by omega)).symm.trans hexec
    have hsucc : (s.frPos + 1).toNat = s.frPos.toNat + 1 := by bv_omega
    refine (h.setFramer (pos := s.frPos + 1) (by omega) hlen ?_).respond _ _
    by_cases hend : s.frPos.toNat + 1 = s.frCend.toNat
    · rw [if_pos hend]
      show 0 < (s.frPos + 1).toNat
        ∧ (s.frPos + 1 = s.frLen ∨ (s.frPos + 1).toNat % 256 = 0)
      rw [BitVec.toNat_eq]
      omega
    · simp only [State.framerInv, if_neg hend, hsucc]
      omega
  case eox =>
    cases (exec_frpop_eox hphase).symm.trans hexec
    refine (h.setFramer hpos hlen ?_).respond _ _
    by_cases hdone : s.frPos = s.frLen
    · simp only [State.framerInv, if_pos hdone]
      exact hdone
    · simp only [State.framerInv, if_neg hdone]
      have hne : s.frPos.toNat ≠ s.frLen.toNat := mt BitVec.eq_of_toNat_eq hdone
      exact ⟨by omega, hf.2.resolve_left hdone⟩

/-! ### DFPUSH and DFEND -/

theorem State.Inv.appendByte {s : State} (h : s.Inv) (rev : Bool) (c : Byte) :
    (s.appendByte rev c).Inv := by
  have hp := h.pcnt_le
  have hr := h.rcnt_le
  have hpfull := h.pOvf_full
  have hrfull := h.rOvf_full
  obtain ⟨-, hroom, e⟩ | ⟨-, hroom, e⟩ | ⟨-, hroom, e⟩ | ⟨-, hroom, e⟩ :=
    s.appendByte_cases rev c <;> rw [e]
  · have hsucc : (s.dfRcnt + 1).toNat = s.dfRcnt.toNat + 1 := by bv_omega
    exact (h.setCounts hp (by omega) hpfull fun hovf => absurd (hrfull hovf) (by omega)).ramWrite
      (by omega) c
  · exact h.setCounts hp hr hpfull fun _ => by omega
  · have hsucc : (s.dfPcnt + 1).toNat = s.dfPcnt.toNat + 1 := by bv_omega
    exact (h.setCounts (by omega) hr (fun hovf => absurd (hpfull hovf) (by omega)) hrfull).ramWrite
      (by show s.dfPcnt.toNat < _; omega) c
  · exact h.setCounts hp hr (fun _ => by omega) hrfull

theorem State.Inv.acceptMessage {s : State} (h : s.Inv) (n : Nat) : (s.acceptMessage n).Inv :=
  (State.append_induction _ (fun _ c hu => hu.appendByte _ c) _ s h).respond _ _

theorem State.Inv.dfFail {s : State} (h : s.Inv) {err : ErrorCode} (herr : err.deframer = true) :
    (s.dfFail err).Inv :=
  (h.setDfErr herr).respond _ _

theorem State.Inv.completeMessage {s : State} (h : s.Inv) (len : Nat) :
    (s.completeMessage len).Inv := by
  obtain ⟨-, e⟩ | ⟨-, -, e⟩ | ⟨-, -, -, -, e⟩ | ⟨-, -, -, -, e⟩ | ⟨-, -, -, e⟩ :=
    s.completeMessage_cases len <;> rw [e]
  case inr.inr.inr.inl =>
    exact State.Inv.acceptMessage (h.setOthers _ _ _ true _ _ _ _) _
  case inr.inr.inr.inr => exact h.acceptMessage _
  all_goals exact h.dfFail rfl

theorem State.Inv.dfpush {s t : State} {b : Byte} (h : s.Inv)
    (hexec : exec (.dfpush b) s = .next t) : t.Inv := by
  obtain ⟨-, e⟩ | ⟨-, -, -, e⟩ | ⟨-, -, e⟩ | ⟨-, hb, hroom, e⟩ | ⟨-, -, hlen, e⟩ :=
    execDfpush_cases s b <;> cases e.symm.trans hexec
  · exact h.respond _ _
  · exact h.dfFail rfl
  · have hsucc : (s.dfMlen + 1).toNat = s.dfMlen.toNat + 1 := by bv_omega
    refine (h.mbufWrite (by omega) b (by omega) fun k hk => ?_).respond _ _
    by_cases hlast : k = s.dfMlen.toNat
    · exact ⟨b, hlast ▸ Memory.lookup_store_same _ _ _, hb⟩
    · rw [Memory.lookup_store_other _ b hlast]
      exact h.mbuf_held k (by omega)
  · exact (h.mbufWrite (n := 0) (by omega) b (Nat.zero_le _)
      fun k hk => absurd hk (Nat.not_lt_zero k)).completeMessage _

/-! ### Every command, every step -/

/-- Every command keeps the invariant, by its effect. -/
theorem State.Inv.exec {s t : State} {i : Instr} (h : s.Inv) (hexec : exec i s = .next t) :
    t.Inv := by
  cases exec_effect hexec with
  | answer => exact h.respond _ _
  | wctrl | wbase | ckclr | ckadd => exact h.setOthers _ _ _ _ _ _ _ _
  | memwr d haddr => exact (h.ramWrite haddr d).respond _ _
  | @frstart len hlen =>
    have hfits : (BitVec.ofNat 16 len.toNat).toNat = len.toNat := by
      rw [BitVec.toNat_ofNat]
      omega
    refine (h.setFramer (Nat.zero_le _) (hfits.le.trans hlen) ?_).respond _ _
    by_cases hempty : len.toNat = 0
    · simp only [State.framerInv, hempty]
      rfl
    · simp only [State.framerInv, if_neg hempty, hfits]
      exact ⟨Nat.pos_of_ne_zero hempty, rfl⟩
  | frpop hexec => exact h.frpop hexec
  | dfstart =>
    have hcleared := (h.emptyBuffer.setDfErr (err := .ok) rfl).setCounts (pcnt := 0) (rcnt := 0)
      (pOvf := false) (rOvf := false) (Nat.zero_le _) (Nat.zero_le _) nofun nofun
    exact hcleared.setOthers _ _ _ _ _ _ _ _
  | dfpush hexec => exact h.dfpush hexec
  | dfend hsticky hcheck =>
    refine (h.setDfErr ?_).respond _ _
    by_cases herr : s.dfErr = .ok
    · obtain rfl | rfl | rfl := hcheck herr <;> rfl
    · rw [hsticky herr]
      exact h.dfErr_code

theorem State.Inv.applyReset {s : State} (h : s.Inv) : s.applyReset.Inv :=
  { resetSatisfiesTheInvariant with
    ram_wf := h.ram_wf
    ram_below := h.ram_below }

theorem State.Inv.runInput {s t : State} {x : HostInput} (h : s.Inv)
    (hrun : runInput x s = .next t) : t.Inv := by
  obtain ⟨-, e⟩ | ⟨-, -, e⟩ | ⟨-, i, -, e⟩ | ⟨-, -, e⟩ := runInput_cases x s
  · cases e.symm.trans hrun
    exact h.applyReset
  · cases e.symm.trans hrun
    exact h.respond _ _
  · exact h.exec (e.symm.trans hrun)
  · cases e.symm.trans hrun
    exact h

/-- Settles O52: a step runs nothing, or an entry on the state without it. -/
theorem everyStepKeepsTheInvariant : Obligations.EveryStepKeepsTheInvariant := by
  intro s t h hstep
  cases hinputs : s.inputs with
  | nil =>
    cases (step_of_nil hinputs).symm.trans hstep
    exact h
  | cons x rest => exact (h.setInputs rest).runInput ((step_of_cons hinputs).symm.trans hstep)

theorem State.Inv.runInput_next {s : State} (h : s.Inv) (x : HostInput) :
    ∃ t, Machine.runInput x s = .next t := by
  obtain ⟨-, e⟩ | ⟨-, -, e⟩ | ⟨-, i, -, e⟩ | ⟨-, -, e⟩ := runInput_cases x s
  case inr.inr.inl => exact e ▸ h.exec_next i
  all_goals exact ⟨_, e⟩

/-- Settles O55: the invariant excludes both stops, and nothing else keeps a command from
answering. -/
theorem everyStepCompletes : Obligations.EveryStepCompletes := by
  refine fun s h => ⟨?_, fun i => ?_⟩
  · cases hinputs : s.inputs with
    | nil => exact ⟨s, step_of_nil hinputs⟩
    | cons x rest =>
      obtain ⟨t, hrun⟩ := (h.setInputs rest).runInput_next x
      exact ⟨t, (step_of_cons hinputs).trans hrun⟩
  · obtain ⟨t, hexec⟩ := h.exec_next i
    exact ⟨t, hexec, exec_rspValid hexec, exec_inputs hexec⟩

/-! ### Runs from reset -/

theorem core_run_succ {s u : State} (h : step s = .next u) (k : Nat) :
    Sys2Proof.core.run (k + 1) s = Sys2Proof.core.run k u := by
  have hstep : Sys2Proof.core.step s = .next u := h
  simp only [Host.Core.run, hstep]

theorem State.Inv.run {k : Nat} {s t : State} (h : s.Inv)
    (hrun : Sys2Proof.core.run k s = .next t) : t.Inv := by
  induction k generalizing s with
  | zero =>
    cases hrun
    exact h
  | succ k ih =>
    obtain ⟨u, hstep⟩ := (everyStepCompletes s h).1
    exact ih (everyStepKeepsTheInvariant s u h hstep) ((core_run_succ hstep k).symm.trans hrun)

theorem FramerPhase.code_lt (p : FramerPhase) : p.code.toNat < 12 := by
  cases p <;> decide

theorem ErrorCode.mem_of_deframer {e : ErrorCode} (h : e.deframer = true) :
    e ∈ [ErrorCode.ok, .header, .size, .cksum, .frameShort, .frameLong, .trunc] := by
  revert h
  cases e <;> decide

/-- Settles O53: the invariant holds after reset with anything to drive, so in every state reached,
and it says the listed six. -/
theorem reachableStatesKeepTheListedInvariants :
    Obligations.ReachableStatesKeepTheListedInvariants := by
  intro driven k s hrun
  have h : s.Inv := (resetSatisfiesTheInvariant.setInputs driven).run hrun
  have hf := h.framer
  refine ⟨h.pcnt_le, h.rcnt_le, h.mlen_le, h.pos_le, h.len_le, fun hphase => ?_, fun hphase => ?_,
    s.frPhase.code_lt, ErrorCode.mem_of_deframer h.dfErr_code⟩ <;>
    simp only [State.framerInv, hphase] at hf
  · exact hf
  · omega

end Sys2Proof.Machine

/-! ## Commands on a state with other fields (10_state R20; 70_reset R313) -/

namespace Sys2Proof.Machine

/-- The outcome with its next state, if it is one, changed. -/
def mapNext (f : State → State) :
    Host.Outcome State Fault Refusal → Host.Outcome State Fault Refusal
  | .next t => .next (f t)
  | .fault r => .fault r
  | .refused q => .refused q

theorem eq_mapNext_ite {f : State → State} {c : Prop} [Decidable c]
    {o₁ o₂ o₁' o₂' : Host.Outcome State Fault Refusal} (h₁ : o₁' = mapNext f o₁)
    (h₂ : o₂' = mapNext f o₂) :
    (if c then o₁' else o₂') = mapNext f (if c then o₁ else o₂) := by
  rw [apply_ite (mapNext f), h₁, h₂]

/-- CTRL, the deframer, its buffer and RAM of `s`; ABASE, CKACC, the framer, the response and the
host's list of `r`. -/
def State.withRest (s r : State) : State :=
  { r with
    ctrlStrict := s.ctrlStrict
    dfPcnt := s.dfPcnt
    dfRcnt := s.dfRcnt
    dfMlen := s.dfMlen
    dfErr := s.dfErr
    pOvf := s.pOvf
    rOvf := s.rOvf
    ckWarn := s.ckWarn
    dfMbuf := s.dfMbuf
    ram := s.ram }

/-- `t` over `r`, with the response of `t`. -/
def State.answeredOver (r t : State) : State := t.withRest (r.respond t.rspRes t.rspErr)

/-! ### DFPUSH reads and writes the deframer's side only -/

section
variable (s r : State)

theorem State.withRest_appendByte (rev : Bool) (c : Byte) :
    (s.withRest r).appendByte rev c = (s.appendByte rev c).withRest r := by
  unfold State.appendByte
  simp only [apply_ite (State.withRest · r)]
  rfl

theorem State.withRest_append (rev : Bool) (cs : List Byte) :
    (s.withRest r).append rev cs = (s.append rev cs).withRest r := by
  induction cs generalizing s with
  | nil => rfl
  | cons c cs ih => rw [State.append_cons, State.append_cons, State.withRest_appendByte, ih]

theorem State.withRest_acceptMessage (n : Nat) :
    (s.withRest r).acceptMessage n = State.answeredOver r (s.acceptMessage n) := by
  rw [State.acceptMessage_eq, State.acceptMessage_eq]
  exact congrArg (State.respond · _ _) (s.withRest_append r _ _)

theorem State.withRest_completeMessage (len : Nat) :
    (s.withRest r).completeMessage len = State.answeredOver r (s.completeMessage len) := by
  unfold State.completeMessage
  simp only [apply_ite (State.answeredOver r), ← State.withRest_acceptMessage]
  rfl

theorem exec_dfpush_withRest (b : Byte) :
    exec (.dfpush b) (s.withRest r) = mapNext (State.answeredOver r) (exec (.dfpush b) s) := by
  obtain ⟨herr, e⟩ | ⟨herr, hb, hlen, e⟩ | ⟨herr, hlen, e⟩ | ⟨herr, hb, hlen, e⟩
    | ⟨herr, rfl, hlen, e⟩ := execDfpush_cases s b <;> rw [show exec (.dfpush _) s = _ from e, mapNext]
  · exact exec_dfpush_of_dfErr (s := s.withRest r) herr b
  · exact exec_dfpush_of_full (s := s.withRest r) herr hb hlen
  · exact exec_dfpush_past_buffer (s := s.withRest r) b herr hlen
  · exact exec_dfpush_of_room (s := s.withRest r) herr hb hlen
  · exact (exec_dfpush_eox (s := s.withRest r) herr hlen).trans
      (congrArg Host.Outcome.next (s.terminated.withRest_completeMessage r _))

end

/-! ### FRPOP reads the framer, and RAM at FR_POS -/

/-- The state with another response on the port. -/
def State.withResponse (s : State) (valid : Bool) (res : Word) (err : ErrorCode) : State :=
  { s with rspValid := valid, rspRes := res, rspErr := err }

/-- FRPOP over another RAM and deframer, whatever response stands on the port: only the byte at
FR_POS matters. -/
theorem exec_frpop_withRest {s d : State}
    (hread : d.ramRead s.frPos.toNat = s.ramRead s.frPos.toNat)
    (valid : Bool) (res : Word) (err : ErrorCode) :
    exec .frpop (d.withRest (s.withResponse valid res err))
      = mapNext (State.withRest d) (exec .frpop s) := by
  have hphase : (d.withRest (s.withResponse valid res err)).frPhase = s.frPhase := rfl
  show execFrpop _ = mapNext _ (execFrpop s)
  unfold execFrpop
  rw [hphase]
  cases s.frPhase
  case data =>
    dsimp only
    rw [apply_ite (mapNext _), ← hread]
    rfl
  all_goals rfl

/-- Settles O50: FRPOP leaves the deframer's side of the state alone and DFPUSH the framer's, and
the byte FRPOP reads is the same before and after. -/
theorem frpopAndDfpushCommute : Obligations.FrpopAndDfpushCommute := by
  intro s t u b ht hu hram
  obtain ⟨s₁, hpop, ht⟩ := runInstrs_cons_eq_some.mp ht
  obtain ⟨t, hpush₁, ⟨⟩⟩ := runInstrs_cons_eq_some.mp ht
  obtain ⟨u₁, hpush, hu⟩ := runInstrs_cons_eq_some.mp hu
  obtain ⟨u, hpop₁, ⟨⟩⟩ := runInstrs_cons_eq_some.mp hu
  have hs₁ : s₁ = s.withRest s₁ := by
    rw [exec_frpop_frame hpop]
    rfl
  have ht₁ : t = State.answeredOver s₁ u₁ := by
    rw [hs₁, exec_dfpush_withRest, hpush] at hpush₁
    cases hpush₁
    rfl
  have hu₁ : u₁ = u₁.withRest (s.withResponse true u₁.rspRes u₁.rspErr) := by
    rw [exec_dfpush_frame hpush]
    rfl
  have hu₂ : u = u₁.withRest s₁ := by
    have hread : u₁.ramRead s.frPos.toNat = s.ramRead s.frPos.toNat :=
      State.ramRead_of_ram_eq ((congrArg State.ram ht₁).symm.trans hram) _
    rw [hu₁, exec_frpop_withRest hread, hpop] at hpop₁
    cases hpop₁
    rfl
  have hvalid : s₁.rspValid = true := exec_rspValid hpop
  rw [ht₁, hu₂]
  show u₁.withRest { s₁ with rspValid := true } = u₁.withRest s₁
  rw [← hvalid]

/-! ### The host's list -/

/-- The state with other entries for the host to drive. -/
def State.setInputs (s : State) (xs : List HostInput) : State := { s with inputs := xs }

/-- No command looks at what the host has still to drive. -/
theorem exec_setInputs (i : Instr) (s : State) (xs : List HostInput) :
    exec i (s.setInputs xs) = mapNext (State.setInputs · xs) (exec i s) := by
  cases i with
  | nop | wbase | ckclr | ckadd | ckget | aenc | ctoi | dfstart => rfl
  | wctrl | memwr | memrd | ckvfy | adec | frstart => exact eq_mapNext_ite rfl rfl
  | rreg sel =>
    cases hread : s.readRegister sel with
    | some v => rw [exec_rreg_of_some hread, exec_rreg_of_some (s := s.setInputs xs) hread]; rfl
    | none => rw [exec_rreg_of_none hread, exec_rreg_of_none (s := s.setInputs xs) hread]; rfl
  | ctoa b =>
    cases hascii : toAscii b with
    | some ch => rw [exec_ctoa_of_some hascii, exec_ctoa_of_some hascii]; rfl
    | none => rw [exec_ctoa_of_none hascii, exec_ctoa_of_none hascii]; rfl
  | frpop =>
    have hphase : (s.setInputs xs).frPhase = s.frPhase := rfl
    show execFrpop _ = mapNext _ (execFrpop s)
    unfold execFrpop
    rw [hphase]
    cases s.frPhase
    case data => exact eq_mapNext_ite rfl rfl
    all_goals rfl
  | dfpush b =>
    rw [show s.setInputs xs = s.withRest (s.setInputs xs) from rfl, exec_dfpush_withRest]
    cases h : exec (.dfpush b) s with
    | next t =>
      rw [exec_dfpush_frame h]
      rfl
    | fault r => rfl
    | refused q => rfl
  | dfend =>
    show execDfend _ = mapNext _ (execDfend s)
    unfold execDfend
    exact eq_mapNext_ite rfl (eq_mapNext_ite rfl (eq_mapNext_ite rfl rfl))

/-- Settles O54: each step decodes the word of the list's next command and runs it on the state the
one before left, with the rest of the program still to drive. -/
theorem hostProgramRunsInOrder : Obligations.HostProgramRunsInOrder := by
  intro is s t hwf hinputs hrun
  induction is generalizing s with
  | nil =>
    cases hrun
    rw [hostProgram, List.map_nil, ← hinputs]
    rfl
  | cons i is ih =>
    obtain ⟨u, hexec, hrest⟩ := runInstrs_cons_eq_some.mp hrun
    have hdec : decode (encode i) = .ok i := decodeInvertsEncode i (hwf i List.mem_cons_self)
    have hstep : step (s.setInputs (hostProgram (i :: is)))
        = .next (u.setInputs (hostProgram is)) := by
      rw [step_of_cons (x := HostInput.command (encode i)) (rest := hostProgram is) rfl,
        runInput_command, runCommand_ok hdec]
      exact (exec_setInputs i s _).trans (congrArg (mapNext _) hexec)
    have hidle : u.inputs = [] := (exec_inputs hexec).trans hinputs
    exact (core_run_succ hstep is.length).trans
      (ih u (fun j hj => hwf j (List.mem_cons_of_mem i hj)) hidle hrest)

end Sys2Proof.Machine

/-! ## The stream of a framing (45_framer R192 to R194) -/

namespace Sys2Proof.Machine

/-! ### The stream, message by message -/

section
variable (img : Nat → Byte) (B : BitVec 21)

@[simp] theorem frameBody_length (s e : Nat) : (frameBody img B s e).length = 3 + (e - s) := by
  simp only [frameBody, List.length_append, List.length_cons, List.length_nil, List.length_map,
    List.length_range']

@[simp] theorem frameMessage_length (s e : Nat) :
    (frameMessage img B s e).length = 10 + (e - s) := by
  simp only [frameMessage, Config.header, List.length_append, List.length_cons, List.length_nil,
    frameBody_length]
  omega

/-- The first `n` messages of a framing. -/
def firstMessages (len n : Nat) : List Byte :=
  (List.range n).flatMap fun k => frameMessage img B (256 * k) (min (256 * k + 256) len)

theorem frame_eq_firstMessages (len : Nat) :
    frame img len B = firstMessages img B len ((len + 255) / 256) := rfl

theorem firstMessages_succ (len n : Nat) :
    firstMessages img B len (n + 1)
      = firstMessages img B len n ++ frameMessage img B (256 * n) (min (256 * n + 256) len) := by
  simp [firstMessages, List.range_succ]

theorem firstMessages_length {len n : Nat} (hn : n ≤ (len + 255) / 256) :
    (firstMessages img B len n).length = min (256 * n) len + 10 * n := by
  induction n with
  | zero => simp [firstMessages]
  | succ n ih =>
    rw [firstMessages_succ, List.length_append, ih (by omega), frameMessage_length]
    omega

theorem frame_length (len : Nat) : (frame img len B).length = framingLength len := by
  rw [frame_eq_firstMessages, firstMessages_length img B (Nat.le_refl _), framingLength]
  omega

end

/-- Settles O34: a message is 10 bytes longer than its content, and the contents make up the
image. -/
theorem streamLengths : Obligations.StreamLengths := by
  refine ⟨fun img len B => ⟨frame_length img B len, fun h => ?_⟩, fun img B => ⟨?_, ?_⟩⟩
  · rw [h]
    rfl
  · rw [frame_length]
    rfl
  · rw [frame_length]
    rfl

/-- Settles O33: the body is the triple and at most 256 content bytes, and the checksum negates its
sum. -/
theorem generatedMessagesSumToZero : Obligations.GeneratedMessagesSumToZero := by
  intro img len B k hk
  refine ⟨frameBody img B (256 * k) (min (256 * k + 256) len), _, rfl, ?_, ?_,
    natSum_add_checksum_mod _⟩
  all_goals
    rw [frameBody_length]
    omega

end Sys2Proof.Machine

/-! ## The framer engine gives the stream (45_framer R191, R192) -/

namespace Sys2Proof.Machine

/-! ### Runs of FRPOPs that each give a byte -/

/-- FRPOPs from `s` to `t`, each giving the next byte of the list (45_framer R191). -/
inductive Emits : State → List Byte → State → Prop
  | nil (s : State) : Emits s [] s
  | cons {s t u : State} {out : Byte} {bs : List Byte} (hpop : exec .frpop s = .next t)
      (hout : t.rspRes = 0x100#32 ||| out.setWidth 32) (hrest : Emits t bs u) :
      Emits s (out :: bs) u

theorem Emits.append {s t u : State} {xs ys : List Byte} (h : Emits s xs t) (h' : Emits t ys u) :
    Emits s (xs ++ ys) u := by
  induction h with
  | nil => exact h'
  | cons hpop hout _ ih => exact .cons hpop hout (ih h')

/-- What `popBytes` collects: the valid flag is set, and the low byte is the byte given. -/
theorem Emits.popBytes {s t : State} {bs : List Byte} (h : Emits s bs t) :
    popBytes bs.length s = some (bs, t) := by
  induction h with
  | nil => rfl
  | @cons s t u out bs hpop hout _ ih =>
    have hvalid : t.rspRes.getLsbD 8 = true := by simp [hout]
    have hbyte : t.rspRes.setWidth 8 = out := by
      rw [hout, BitVec.setWidth_or, BitVec.setWidth_setWidth_of_le _ (by decide),
        BitVec.setWidth_eq]
      exact BitVec.zero_or
    rw [List.length_cons, Machine.popBytes, hpop]
    dsimp only
    rw [if_pos hvalid, ih, hbyte, Option.map_some]

/-- FRPOPs leave the base, the length and RAM. -/
theorem Emits.frame {s t : State} {bs : List Byte} (h : Emits s bs t) :
    t.frBase = s.frBase ∧ t.frLen = s.frLen ∧ t.ram = s.ram := by
  induction h with
  | nil => exact ⟨rfl, rfl, rfl⟩
  | cons hpop _ _ ih =>
    rw [exec_frpop_frame hpop] at ih
    exact ih

theorem Emits.ramRead {s t : State} {bs : List Byte} (h : Emits s bs t) : t.ramRead = s.ramRead := by
  obtain ⟨-, -, hram⟩ := h.frame
  exact funext (State.ramRead_of_ram_eq hram)

/-! ### One message -/

theorem Emits.single {s t : State} {out : Byte} (hpop : exec .frpop s = .next t)
    (hout : t.rspRes = 0x100#32 ||| out.setWidth 32) : Emits s [out] t :=
  .cons hpop hout (.nil t)

/-- The same base, offset and length: the same address and the same end of the chunk. -/
structure SameChunk (s t : State) : Prop where
  base : t.frBase = s.frBase
  pos : t.frPos = s.frPos
  len : t.frLen = s.frLen

theorem SameChunk.trans {s t u : State} (h : SameChunk s t) (h' : SameChunk t u) : SameChunk s u :=
  ⟨h'.base.trans h.base, h'.pos.trans h.pos, h'.len.trans h.len⟩

theorem SameChunk.frAddress {s t : State} (h : SameChunk s t) : t.frAddress = s.frAddress := by
  rw [State.frAddress, h.base, h.pos, State.frAddress]

theorem SameChunk.chunkEnd {s t : State} (h : SameChunk s t) : t.chunkEnd = s.chunkEnd := by
  rw [State.chunkEnd, h.pos, h.len, State.chunkEnd]

section
variable {s : State}

theorem emits_h0 (hphase : s.frPhase = .h0) :
    ∃ t, Emits s [0xF0] t ∧ t.frPhase = .h1 ∧ t.frSum = 0#8 ∧ SameChunk s t :=
  ⟨_, .single (exec_frpop_h0 hphase) rfl, rfl, rfl, rfl, rfl, rfl⟩

theorem emits_h1 (hphase : s.frPhase = .h1) :
    ∃ t, Emits s [0x41] t ∧ t.frPhase = .h2 ∧ t.frSum = s.frSum ∧ SameChunk s t :=
  ⟨_, .single (exec_frpop_h1 hphase) rfl, rfl, rfl, rfl, rfl, rfl⟩

theorem emits_h2 (hphase : s.frPhase = .h2) :
    ∃ t, Emits s [0x00] t ∧ t.frPhase = .h3 ∧ t.frSum = s.frSum ∧ SameChunk s t :=
  ⟨_, .single (exec_frpop_h2 hphase) rfl, rfl, rfl, rfl, rfl, rfl⟩

theorem emits_h3 (hphase : s.frPhase = .h3) :
    ∃ t, Emits s [0x14] t ∧ t.frPhase = .h4 ∧ t.frSum = s.frSum ∧ SameChunk s t :=
  ⟨_, .single (exec_frpop_h3 hphase) rfl, rfl, rfl, rfl, rfl, rfl⟩

theorem emits_h4 (hphase : s.frPhase = .h4) :
    ∃ t, Emits s [0x12] t ∧ t.frPhase = .ah ∧ t.frSum = s.frSum ∧ SameChunk s t :=
  ⟨_, .single (exec_frpop_h4 hphase) rfl, rfl, rfl, rfl, rfl, rfl⟩

/-- Phases H0 to H4. -/
theorem emits_header (hphase : s.frPhase = .h0) :
    ∃ t, Emits s Config.header t ∧ t.frPhase = .ah ∧ t.frSum = 0#8 ∧ SameChunk s t := by
  obtain ⟨s₁, h₁, hp₁, hm₁, hc₁⟩ := emits_h0 hphase
  obtain ⟨s₂, h₂, hp₂, hm₂, hc₂⟩ := emits_h1 hp₁
  obtain ⟨s₃, h₃, hp₃, hm₃, hc₃⟩ := emits_h2 hp₂
  obtain ⟨s₄, h₄, hp₄, hm₄, hc₄⟩ := emits_h3 hp₃
  obtain ⟨s₅, h₅, hp₅, hm₅, hc₅⟩ := emits_h4 hp₄
  exact ⟨s₅, h₁.append (h₂.append (h₃.append (h₄.append h₅))), hp₅,
    by rw [hm₅, hm₄, hm₃, hm₂, hm₁], hc₁.trans (hc₂.trans (hc₃.trans (hc₄.trans hc₅)))⟩

theorem emits_ah (hphase : s.frPhase = .ah) :
    ∃ t, Emits s [(enc21 s.frAddress).h] t ∧ t.frPhase = .am
      ∧ t.frSum = s.frSum + (enc21 s.frAddress).h ∧ SameChunk s t :=
  ⟨_, .single (exec_frpop_ah hphase) rfl, rfl, rfl, rfl, rfl, rfl⟩

theorem emits_am (hphase : s.frPhase = .am) :
    ∃ t, Emits s [(enc21 s.frAddress).m] t ∧ t.frPhase = .al
      ∧ t.frSum = s.frSum + (enc21 s.frAddress).m ∧ SameChunk s t :=
  ⟨_, .single (exec_frpop_am hphase) rfl, rfl, rfl, rfl, rfl, rfl⟩

theorem emits_al (hphase : s.frPhase = .al) :
    ∃ t, Emits s [(enc21 s.frAddress).l] t ∧ t.frPhase = .data
      ∧ t.frSum = s.frSum + (enc21 s.frAddress).l ∧ SameChunk s t ∧ t.frCend = s.chunkEnd :=
  ⟨_, .single (exec_frpop_al hphase) rfl, rfl, rfl, ⟨rfl, rfl, rfl⟩, rfl⟩

/-- Phases AH to AL: the triple, summed, and the end of the chunk latched. -/
theorem emits_triple (hphase : s.frPhase = .ah) :
    ∃ t, Emits s [(enc21 s.frAddress).h, (enc21 s.frAddress).m, (enc21 s.frAddress).l] t
      ∧ t.frPhase = .data
      ∧ t.frSum = s.frSum
          + sumBytes [(enc21 s.frAddress).h, (enc21 s.frAddress).m, (enc21 s.frAddress).l]
      ∧ SameChunk s t ∧ t.frCend = s.chunkEnd := by
  obtain ⟨s₁, h₁, hp₁, hm₁, hc₁⟩ := emits_ah hphase
  obtain ⟨s₂, h₂, hp₂, hm₂, hc₂⟩ := emits_am hp₁
  obtain ⟨s₃, h₃, hp₃, hm₃, hc₃, he₃⟩ := emits_al hp₂
  have hc₁₂ := hc₁.trans hc₂
  rw [hc₁.frAddress] at h₂ hm₂
  rw [hc₁₂.frAddress] at h₃ hm₃
  refine ⟨s₃, h₁.append (h₂.append h₃), hp₃, ?_, hc₁₂.trans hc₃, he₃.trans hc₁₂.chunkEnd⟩
  rw [hm₃, hm₂, hm₁, sumBytes_cons, sumBytes_cons, sumBytes_cons, sumBytes_nil, BitVec.add_zero,
    BitVec.add_assoc, BitVec.add_assoc]

theorem emits_data (hphase : s.frPhase = .data) (hpos : s.frPos.toNat < 0x8780) :
    ∃ t, Emits s [s.ramRead s.frPos.toNat] t
      ∧ t.frPhase = (if s.frPos.toNat + 1 = s.frCend.toNat then .ck else .data)
      ∧ t.frSum = s.frSum + s.ramRead s.frPos.toNat ∧ t.frPos = s.frPos + 1 ∧ t.frCend = s.frCend :=
  ⟨_, .single (exec_frpop_data hphase hpos) rfl, rfl, rfl, rfl, rfl⟩

/-- Phase DATA: the rest of the chunk, read from RAM and summed. -/
theorem emits_content {n : Nat} (hphase : s.frPhase = .data)
    (hn : s.frPos.toNat + (n + 1) = s.frCend.toNat) (hend : s.frCend.toNat ≤ 0x8780) :
    ∃ t, Emits s ((List.range' s.frPos.toNat (n + 1)).map s.ramRead) t ∧ t.frPhase = .ck
      ∧ t.frSum = s.frSum + sumBytes ((List.range' s.frPos.toNat (n + 1)).map s.ramRead)
      ∧ t.frPos = s.frCend := by
  induction n generalizing s with
  | zero =>
    obtain ⟨t, ht, htp, htm, htq, -⟩ := emits_data hphase (by omega)
    have hlast : s.frPos + 1 = s.frCend := by bv_omega
    exact ⟨t, ht, htp.trans (if_pos hn), by simpa using htm, htq.trans hlast⟩
  | succ n ih =>
    obtain ⟨u, hu, hup, hum, huq, hue⟩ := emits_data hphase (by omega)
    have hpos : u.frPos.toNat = s.frPos.toNat + 1 := by rw [huq]; bv_omega
    have hram : u.ramRead = s.ramRead := hu.ramRead
    obtain ⟨t, ht, htp, htm, htq⟩ := ih (s := u) (hup.trans (if_neg (by omega)))
      (by rw [hpos, hue]; omega) (hue ▸ hend)
    rw [hpos, hram] at ht htm
    rw [List.range'_succ, List.map_cons, sumBytes_cons, ← BitVec.add_assoc, ← hum]
    exact ⟨t, hu.append ht, htp, htm, htq.trans hue⟩

/-- Phases CK and EOX: the checksum of what was summed, and the terminator. -/
theorem emits_trailer (hphase : s.frPhase = .ck) :
    ∃ t, Emits s [checksum s.frSum, Config.eox] t
      ∧ t.frPhase = (if t.frPos = t.frLen then .idle else .h0) ∧ t.frPos = s.frPos := by
  obtain ⟨s₁, h₁, hp₁, hq₁⟩ :
      ∃ t, Emits s [checksum s.frSum] t ∧ t.frPhase = .eox ∧ t.frPos = s.frPos :=
    ⟨_, .single (exec_frpop_ck hphase) rfl, rfl, rfl⟩
  obtain ⟨s₂, h₂, hp₂, hq₂⟩ : ∃ t, Emits s₁ [Config.eox] t
      ∧ t.frPhase = (if t.frPos = t.frLen then .idle else .h0) ∧ t.frPos = s₁.frPos :=
    ⟨_, .single (exec_frpop_eox hp₁) rfl, rfl, rfl⟩
  exact ⟨s₂, h₁.append h₂, hp₂, hq₂.trans hq₁⟩

/-- A whole message, from the offset where its chunk begins. -/
theorem emits_message (hphase : s.frPhase = .h0) (hpos : s.frPos.toNat < s.frLen.toNat)
    (hlen : s.frLen.toNat ≤ 0x8780) :
    ∃ t, Emits s (frameMessage s.ramRead s.frBase s.frPos.toNat
          (min (s.frPos.toNat + 256) s.frLen.toNat)) t
      ∧ t.frPhase = (if t.frPos = t.frLen then .idle else .h0)
      ∧ t.frPos.toNat = min (s.frPos.toNat + 256) s.frLen.toNat := by
  obtain ⟨s₁, h₁, hp₁, hm₁, hc₁⟩ := emits_header hphase
  obtain ⟨s₂, h₂, hp₂, hm₂, hc₂, he₂⟩ := emits_triple hp₁
  have hc := hc₁.trans hc₂
  have hend : s₂.frCend.toNat = min (s.frPos.toNat + 256) s.frLen.toNat := by
    rw [he₂, hc₁.chunkEnd, State.chunkEnd_toNat]
  obtain ⟨n, hn⟩ : ∃ n, s.frPos.toNat + (n + 1) = s₂.frCend.toNat :=
    ⟨s₂.frCend.toNat - s.frPos.toNat - 1, by omega⟩
  obtain ⟨s₃, h₃, hp₃, hm₃, hq₃⟩ := emits_content hp₂ (hc.pos ▸ hn) (by omega)
  obtain ⟨s₄, h₄, hp₄, hq₄⟩ := emits_trailer hp₃
  have hram : s₂.ramRead = s.ramRead := (h₁.append h₂).ramRead
  have haddr : s₁.frAddress = s.frBase + BitVec.ofNat 21 s.frPos.toNat := by
    rw [hc₁.frAddress, State.frAddress, BitVec.ofNat_toNat]
  have hcontent : n + 1 = min (s.frPos.toNat + 256) s.frLen.toNat - s.frPos.toNat := by omega
  rw [hram, hc.pos, hcontent] at h₃ hm₃
  rw [haddr] at h₂ hm₂
  have hbody := h₂.append h₃
  rw [hm₃, hm₂, hm₁, BitVec.zero_add, ← sumBytes_append] at h₄
  refine ⟨s₄, ?_, hp₄, ?_⟩
  · rw [frameMessage, List.append_assoc]
    exact h₁.append (hbody.append h₄)
  · rw [hq₄, hq₃, hend]

end

/-! ### The whole stream -/

/-- The messages of a framing one after another: between two of them the engine stands at the next
chunk's offset, idle when none is left. -/
theorem emits_firstMessages {s : State} (hpos : s.frPos = 0)
    (hphase : s.frPhase = if s.frPos = s.frLen then .idle else .h0) (hlen : s.frLen.toNat ≤ 0x8780)
    {n : Nat} (hn : n ≤ (s.frLen.toNat + 255) / 256) :
    ∃ t, Emits s (firstMessages s.ramRead s.frBase s.frLen.toNat n) t
      ∧ t.frPhase = (if t.frPos = t.frLen then .idle else .h0)
      ∧ t.frPos.toNat = min (256 * n) s.frLen.toNat := by
  induction n with
  | zero => exact ⟨s, .nil s, hphase, by rw [hpos, Nat.mul_zero, Nat.zero_min]; rfl⟩
  | succ n ih =>
    obtain ⟨t, ht, htp, htq⟩ := ih (by omega)
    obtain ⟨hbase, hlen', -⟩ := ht.frame
    have hmore : t.frPos.toNat < t.frLen.toNat := by rw [htq, hlen']; omega
    have hh0 : t.frPhase = .h0 := by
      rw [htp, if_neg]
      exact fun h => absurd (congrArg BitVec.toNat h) (Nat.ne_of_lt hmore)
    obtain ⟨u, hu, hup, huq⟩ := emits_message hh0 hmore (hlen' ▸ hlen)
    have hchunk : t.frPos.toNat = 256 * n := by rw [htq]; omega
    rw [ht.ramRead, hbase, hlen', hchunk] at hu
    refine ⟨u, ?_, hup, ?_⟩
    · rw [firstMessages_succ]
      exact ht.append hu
    · rw [huq, hlen', hchunk]
      omega

/-- The stream of a framing that FRSTART began, and the idle engine after it. -/
theorem emits_frame {s : State} (hpos : s.frPos = 0)
    (hphase : s.frPhase = if s.frPos = s.frLen then .idle else .h0)
    (hlen : s.frLen.toNat ≤ 0x8780) :
    ∃ t, Emits s (frame s.ramRead s.frLen.toNat s.frBase) t ∧ t.frPhase = .idle := by
  obtain ⟨t, ht, htp, htq⟩ := emits_firstMessages hpos hphase hlen (Nat.le_refl _)
  refine ⟨t, ht, ?_⟩
  obtain ⟨-, hlen', -⟩ := ht.frame
  rw [htp, if_pos]
  exact BitVec.eq_of_toNat_eq (by rw [htq, hlen']; omega)

/-- FRSTART and the FRPOPs of its stream. -/
theorem frstart_emits_frame (s : State) {len : BitVec 24} (hlen : len.toNat ≤ 0x8780) :
    ∃ t u, exec (.frstart len) s = .next t ∧ t.rspRes.toNat = framingLength len.toNat
      ∧ Emits t (frame s.ramRead len.toNat s.abase) u ∧ u.frPhase = .idle := by
  have hstart := exec_frstart_of_le_ramSize hlen s
  generalize ht : State.respond _ _ _ = t at hstart
  have hfits : (BitVec.ofNat 16 len.toNat).toNat = len.toNat := by
    rw [BitVec.toNat_ofNat]
    omega
  have hpos : t.frPos = 0 := by rw [← ht]; rfl
  have hframe : t.frLen = BitVec.ofNat 16 len.toNat ∧ t.frBase = s.abase ∧ t.ram = s.ram := by
    rw [← ht]
    exact ⟨rfl, rfl, rfl⟩
  obtain ⟨hl, hbase, hram⟩ := hframe
  have hphase : t.frPhase = if t.frPos = t.frLen then .idle else .h0 := by
    have hiff : (0 : BitVec 16) = BitVec.ofNat 16 len.toNat ↔ len.toNat = 0 := by
      rw [BitVec.toNat_eq, hfits]
      exact eq_comm
    rw [hpos, hl, ← ht]
    simp only [hiff]
    rfl
  have hres : t.rspRes.toNat = framingLength len.toNat := by
    rw [← ht]
    show (BitVec.ofNat 32 (framingLength len.toNat)).toNat = _
    rw [BitVec.toNat_ofNat, framingLength]
    omega
  obtain ⟨u, hu, hidle⟩ := emits_frame hpos hphase (by rw [hl, hfits]; exact hlen)
  rw [funext (State.ramRead_of_ram_eq hram), hl, hfits, hbase] at hu
  exact ⟨t, u, hstart, hres, hu, hidle⟩

/-- Settles O32: the engine's phases give each message of the stream, chunk after chunk. -/
theorem framerGivesTheStream : Obligations.FramerGivesTheStream := by
  intro s len hlen
  obtain ⟨t, u, hstart, hres, hemits, hidle⟩ := frstart_emits_frame s hlen
  have hcount := hres.trans (frame_length s.ramRead s.abase len.toNat).symm
  exact ⟨t, u, hstart, hcount, hcount ▸ hemits.popBytes, hidle, exec_frpop_idle hidle⟩

end Sys2Proof.Machine

/-! ## RAM is read when a byte is popped (45_framer R198; 70_reset R313) -/

namespace Sys2Proof.Machine

/-! ### Every offset not yet emitted is reached -/

/-- The FRPOPs from a phase to the next phase DATA. -/
def FramerPhase.toData : FramerPhase → Nat
  | .data => 0
  | .al => 1
  | .am => 2
  | .ah => 3
  | .h4 => 4
  | .h3 => 5
  | .h2 => 6
  | .h1 => 7
  | .h0 => 8
  | .eox => 9
  | .ck => 10
  | .idle => 0

/-- Where more bytes are to come, an FRPOP emits the offset in phase DATA and comes nearer to that
phase in any other. -/
theorem frpop_progress {s t : State} (h : s.Inv) (hmore : s.frPos.toNat < s.frLen.toNat)
    (hexec : exec .frpop s = .next t) :
    (s.frPhase = .data ∧ t.frPos.toNat = s.frPos.toNat + 1 ∧ t.frPhase.toData ≤ 10)
      ∨ (s.frPhase ≠ .data ∧ t.frPos = s.frPos ∧ t.frPhase.toData + 1 = s.frPhase.toData) := by
  have hlen := h.len_le
  cases hphase : s.frPhase
  case idle =>
    have hdone : s.frPos = s.frLen := by simpa only [State.framerInv, hphase] using h.framer
    exact absurd (congrArg BitVec.toNat hdone) (Nat.ne_of_lt hmore)
  case data =>
    cases (exec_frpop_data hphase (by omega)).symm.trans hexec
    refine .inl ⟨rfl, ?_, ?_⟩
    · show (s.frPos + 1).toNat = _
      bv_omega
    · show (if _ then FramerPhase.ck else .data).toData ≤ 10
      split <;> decide
  case eox =>
    cases (exec_frpop_eox hphase).symm.trans hexec
    have hnot : s.frPos ≠ s.frLen := fun e => absurd (congrArg BitVec.toNat e) (Nat.ne_of_lt hmore)
    rw [if_neg hnot]
    exact .inr ⟨nofun, rfl, rfl⟩
  case h0 | h1 | h2 | h3 | h4 | ah | am | ck =>
    obtain ⟨sum, res, hnext⟩ := exec_frpop_succ (s := s) (by rw [hphase]; rfl)
    cases hnext.symm.trans hexec
    exact .inr ⟨nofun, rfl, rfl⟩
  case al =>
    cases (exec_frpop_al hphase).symm.trans hexec
    exact .inr ⟨nofun, rfl, rfl⟩

/-- Draining FRPOPs reach every offset from FR_POS to FR_LEN - 1, RAM unchanged. -/
theorem exists_drain_to {s : State} (h : s.Inv) {a : BitVec 16} (ha : s.frPos.toNat ≤ a.toNat)
    (hlen : a.toNat < s.frLen.toNat) :
    ∃ k t, runInstrs (frdrain k) s = some t ∧ t.frPos = a ∧ t.frPhase = .data ∧ t.ram = s.ram := by
  by_cases hhere : s.frPhase = .data ∧ s.frPos = a
  · exact ⟨0, s, rfl, hhere.2, hhere.1, rfl⟩
  obtain ⟨u, hexec⟩ := h.exec_next .frpop
  have hprogress := frpop_progress h (by omega) hexec
  have hnext : u.frPos.toNat ≤ a.toNat := by
    obtain ⟨hphase, hpos, -⟩ | ⟨-, hpos, -⟩ := hprogress
    · have hne : s.frPos.toNat ≠ a.toNat := fun e => hhere ⟨hphase, BitVec.eq_of_toNat_eq e⟩
      omega
    · rwa [hpos]
  have hframe := exec_frpop_frame hexec
  have hulen : u.frLen = s.frLen := by rw [hframe]
  have huram : u.ram = s.ram := by rw [hframe]
  obtain ⟨k, t, hrun, ht, hphase, hram⟩ := exists_drain_to (h.frpop hexec) hnext (hulen ▸ hlen)
  exact ⟨k + 1, t, (runInstrs_cons hexec _).trans hrun, ht, hphase, hram.trans huram⟩
termination_by 16 * (a.toNat - s.frPos.toNat) + s.frPhase.toData
decreasing_by
  obtain ⟨-, hpos, hdata⟩ | ⟨-, hpos, hdata⟩ := hprogress
  · omega
  · rw [hpos]
    omega

/-- In phase DATA the next FRPOP emits and sums the byte RAM holds at FR_POS. -/
theorem popsContent_of_data {t : State} (hphase : t.frPhase = .data)
    (hpos : t.frPos.toNat < 0x8780) : popsContent t (t.ramRead t.frPos.toNat) := by
  refine ⟨hphase, _, exec_frpop_data hphase hpos, ?_, rfl, rfl, rfl⟩
  rw [State.emitSummed_rspRes, byteValid_or_eq, BitVec.toNat_ofNat]
  omega

/-- The offset reached gives the byte RAM held when the draining began. -/
theorem exists_drain_popsContent {s : State} (h : s.Inv) {a : BitVec 16}
    (ha : s.frPos.toNat ≤ a.toNat) (hlen : a.toNat < s.frLen.toNat) :
    ∃ k t, runInstrs (frdrain k) s = some t ∧ t.frPos = a ∧ popsContent t (s.ramRead a.toNat) := by
  obtain ⟨k, t, hrun, rfl, hphase, hram⟩ := exists_drain_to h ha hlen
  rw [← State.ramRead_of_ram_eq hram]
  exact ⟨k, t, hrun, rfl, popsContent_of_data hphase (hlen.trans_le h.len_le)⟩

/-! ### Offsets already emitted do not matter -/

theorem exec_frpop_frPos_le {s t : State} (h : exec .frpop s = .next t) :
    s.frPos.toNat ≤ t.frPos.toNat := by
  have hexec : execFrpop s = .next t := h
  unfold execFrpop at hexec
  cases hphase : s.frPhase <;> simp only [hphase] at hexec
  case data =>
    split at hexec
    next hpos =>
      cases hexec
      show s.frPos.toNat ≤ (s.frPos + 1).toNat
      rw [Config.ramSize] at hpos
      bv_omega
    next => exact nomatch hexec
  all_goals
    cases hexec
    exact Nat.le_refl _

/-- Over a RAM that reads alike from FR_POS on, FRPOPs give the same bytes. -/
theorem popBytes_withRest (n : Nat) {s d : State}
    (hread : ∀ a, s.frPos.toNat ≤ a → d.ramRead a = s.ramRead a) :
    (popBytes n (d.withRest s)).map Prod.fst = (popBytes n s).map Prod.fst := by
  induction n generalizing s with
  | zero => rfl
  | succ n ih =>
    have hpop : exec .frpop (d.withRest s) = mapNext (State.withRest d) (exec .frpop s) :=
      exec_frpop_withRest (hread _ (Nat.le_refl _)) s.rspValid s.rspRes s.rspErr
    rw [popBytes, popBytes, hpop]
    cases hexec : exec .frpop s with
    | fault r => rfl
    | refused q => rfl
    | next t =>
      have hrest := ih (s := t) fun a ha => by
        rw [hread a ((exec_frpop_frPos_le hexec).trans ha), exec_frpop_frame hexec]
        rfl
      have hres : (d.withRest t).rspRes = t.rspRes := rfl
      simp only [mapNext, hres]
      split
      · rw [Option.map_map, Option.map_map]
        simpa [Function.comp_def] using congrArg (Option.map (t.rspRes.setWidth 8 :: ·)) hrest
      · rfl

/-- Settles O36: draining reaches the offset with RAM as the write left it; the commands between
write no RAM; and what lies below FR_POS is never read again. -/
theorem ramIsReadAtPopTime : Obligations.RamIsReadAtPopTime := by
  refine ⟨fun s a d h ha hlen => ?_, fun s u b a h hexec ha hlen => ?_,
    fun u t is his hrun hphase hpos => ?_, fun n s a d ha => ?_⟩
  · have hwrite := exec_memwr_of_lt_ramSize (hlen.trans_le h.len_le) d s
    obtain ⟨k, t, hrun, ht, hpops⟩ := exists_drain_popsContent (h.exec hwrite) ha hlen
    rw [State.respond_ramRead, State.ramRead_ramWrite_same] at hpops
    exact ⟨k, t, (runInstrs_cons hwrite _).trans hrun, ht, hpops⟩
  · exact exists_drain_popsContent (h.dfpush hexec) ha hlen
  · rw [← State.ramRead_of_ram_eq (runInstrs_ram his hrun)]
    exact popsContent_of_data hphase hpos
  · exact popBytes_withRest (d := s.ramWrite a d) n fun k hk =>
      State.ramRead_ramWrite_other s d (by omega)

end Sys2Proof.Machine

/-! ## A message pushed byte by byte (46_deframer R222, R223, R228) -/

namespace Sys2Proof.Machine

/-! ### Filling the buffer -/

theorem State.mbufSlice_push {s : State} {n : BitVec 9} (b : Byte)
    (hn : n.toNat = s.dfMlen.toNat + 1) :
    (State.mbufWrite { s with dfMlen := n } s.dfMlen.toNat b).mbufSlice 0 n.toNat
      = s.mbufSlice 0 s.dfMlen.toNat ++ [b] := by
  have hold : (State.mbufWrite { s with dfMlen := n } s.dfMlen.toNat b).mbufSlice 0 s.dfMlen.toNat
      = s.mbufSlice 0 s.dfMlen.toNat :=
    State.mbufSlice_congr _ _ _ _ fun i _ hi =>
      State.mbufRead_mbufWrite_other { s with dfMlen := n } b (by omega)
  rw [hn, State.mbufSlice_succ, hold, State.mbufRead_mbufWrite_same]

/-- Bytes without a terminator join the message that stands in the buffer, and nothing else but the
response changes. -/
theorem runInstrs_dfsend_buffers {s : State} {bs : List Byte} (herr : s.dfErr = .ok)
    (hroom : s.dfMlen.toNat + bs.length ≤ 265) (heox : 0xF7 ∉ bs) :
    ∃ t, runInstrs (dfsend bs) s = some t
      ∧ t = { s with
          dfMlen := t.dfMlen
          dfMbuf := t.dfMbuf
          rspValid := t.rspValid
          rspRes := t.rspRes
          rspErr := t.rspErr }
      ∧ t.dfMlen.toNat = s.dfMlen.toNat + bs.length
      ∧ t.mbufSlice 0 t.dfMlen.toNat = s.mbufSlice 0 s.dfMlen.toNat ++ bs := by
  induction bs generalizing s with
  | nil => exact ⟨s, rfl, rfl, rfl, (List.append_nil _).symm⟩
  | cons b bs ih =>
    rw [List.length_cons] at hroom
    obtain ⟨hb, hbs⟩ := not_or.mp (mt List.mem_cons.mpr heox)
    have hpush := exec_dfpush_of_room herr (Ne.symm hb) (by omega)
    generalize hu : State.respond _ _ _ = u at hpush
    have hframe : u = { s with
        dfMlen := u.dfMlen
        dfMbuf := u.dfMbuf
        rspValid := u.rspValid
        rspRes := u.rspRes
        rspErr := u.rspErr } := by
      rw [← hu]
      rfl
    have hcount : (s.dfMlen + 1).toNat = s.dfMlen.toNat + 1 := by bv_omega
    have hlen : u.dfMlen = s.dfMlen + 1 := by
      rw [← hu]
      rfl
    have hslice : u.mbufSlice 0 u.dfMlen.toNat = s.mbufSlice 0 s.dfMlen.toNat ++ [b] := by
      rw [hlen, ← State.mbufSlice_push b hcount, ← hu]
      rfl
    have huerr : u.dfErr = .ok := by
      rw [hframe]
      exact herr
    obtain ⟨t, hrun, ht, htlen, htslice⟩ := ih huerr (by rw [hlen]; omega) hbs
    rw [hframe] at ht
    refine ⟨t, (runInstrs_cons hpush _).trans hrun, ht, ?_, ?_⟩
    · rw [htlen, hlen, hcount, List.length_cons]
      omega
    · rw [htslice, hslice, List.append_assoc, List.singleton_append]

/-! ### A whole message -/

/-- A message with its right checksum (46_deframer R223). -/
def wholeMessage (h m l : Byte) (content : List Byte) : List Byte :=
  [0xF0, 0x41, 0x00, 0x14, 0x12, h, m, l] ++ content
    ++ [checksum (sumBytes ([h, m, l] ++ content)), 0xF7]

section
variable (h m l : Byte) (content : List Byte)

theorem wholeMessage_header :
    headerOf (wholeMessage h m l content) = [0xF0, 0x41, 0x00, 0x14, 0x12] := rfl

theorem wholeMessage_length : (wholeMessage h m l content).length = content.length + 10 := by
  simp [wholeMessage]

theorem wholeMessage_body : bodyOf (wholeMessage h m l content) = [h, m, l] ++ content := by
  rw [bodyOf, wholeMessage_length]
  simp [wholeMessage]

theorem wholeMessage_content : contentOf (wholeMessage h m l content) = content := by
  rw [contentOf, wholeMessage_length]
  simp [wholeMessage]

theorem wholeMessage_checksumMatches : checksumMatches (wholeMessage h m l content) := by
  rw [checksumMatches_iff, wholeMessage_body, wholeMessage_length]
  simp [wholeMessage]

end

/-- The state after a whole message: accepted, its content in its region, the other region and the
rest of RAM as before (46_deframer R228, R231). -/
structure MessageAppended (s t : State) (rev : Bool) (content : List Byte) : Prop where
  rspErr : t.rspErr = .ok
  rspRes : t.rspRes.toNat = content.length * 65536 + if rev then 3 else 1
  dfErr : t.dfErr = .ok
  dfMlen : t.dfMlen = 0
  ckWarn : t.ckWarn = s.ckWarn
  count : t.regionCount rev = min (s.regionCount rev + content.length) (regionSize rev)
  ovf : t.regionOvf rev
    = (s.regionOvf rev || decide (regionSize rev < s.regionCount rev + content.length))
  otherCount : t.regionCount (!rev) = s.regionCount (!rev)
  otherOvf : t.regionOvf (!rev) = s.regionOvf (!rev)
  ram : ramAppended s t (regionBase rev) (regionSize rev) (s.regionCount rev) content

section
variable {s : State} {rev : Bool} {ram : Memory} {n : Nat} {ovf : Bool}

theorem State.setRegion_regionCount (hn : n ≤ regionSize rev) :
    (s.setRegion rev ram n ovf).regionCount rev = n := by
  cases rev with
  | true =>
    have hfits : n ≤ 0x1780 := hn
    exact (BitVec.toNat_ofNat ..).trans (Nat.mod_eq_of_lt (by omega))
  | false =>
    have hfits : n ≤ 0x7000 := hn
    exact (BitVec.toNat_ofNat ..).trans (Nat.mod_eq_of_lt (by omega))

theorem State.setRegion_regionOvf : (s.setRegion rev ram n ovf).regionOvf rev = ovf := by
  cases rev <;> rfl

theorem State.setRegion_otherCount :
    (s.setRegion rev ram n ovf).regionCount (!rev) = s.regionCount (!rev) := by
  cases rev <;> rfl

theorem State.setRegion_otherOvf :
    (s.setRegion rev ram n ovf).regionOvf (!rev) = s.regionOvf (!rev) := by
  cases rev <;> rfl

theorem State.setRegion_dfErr : (s.setRegion rev ram n ovf).dfErr = s.dfErr := by
  cases rev <;> rfl

theorem State.setRegion_dfMlen : (s.setRegion rev ram n ovf).dfMlen = s.dfMlen := by
  cases rev <;> rfl

theorem State.setRegion_ckWarn : (s.setRegion rev ram n ovf).ckWarn = s.ckWarn := by
  cases rev <;> rfl

end

/-- Accepting a message appends its content to the region of its triple. -/
theorem MessageAppended.of_acceptMessage {s : State} {rev : Bool} {n : Nat} {content : List Byte}
    (hcontent : s.mbufSlice 8 n = content) (hn : n ≤ 256)
    (hrev : isReverb (s.mbufRead 5) (s.mbufRead 6) = rev) (herr : s.dfErr = .ok)
    (hlen : s.dfMlen = 0)
    (hroom : s.regionCount rev ≤ regionSize rev) :
    MessageAppended s (s.acceptMessage n) rev content := by
  obtain ⟨heq, hram⟩ := State.acceptMessage_eq_setRegion hcontent hrev hroom
  generalize s.acceptMessage n = t at heq hram
  have hsize : content.length ≤ 256 := by
    rw [← hcontent, State.mbufSlice_length]
    exact hn
  exact {
    rspErr := congrArg State.rspErr heq
    rspRes := by
      rw [heq, State.respond_rspRes, BitVec.toNat_ofNat]
      split <;> omega
    dfErr := (congrArg State.dfErr heq).trans (State.setRegion_dfErr.trans herr)
    dfMlen := (congrArg State.dfMlen heq).trans (State.setRegion_dfMlen.trans hlen)
    ckWarn := (congrArg State.ckWarn heq).trans State.setRegion_ckWarn
    count := (congrArg (State.regionCount · rev) heq).trans
      (State.setRegion_regionCount (Nat.min_le_right _ _))
    ovf := (congrArg (State.regionOvf · rev) heq).trans State.setRegion_regionOvf
    otherCount := (congrArg (State.regionCount · (!rev)) heq).trans State.setRegion_otherCount
    otherOvf := (congrArg (State.regionOvf · (!rev)) heq).trans State.setRegion_otherOvf
    ram := hram }

/-- Where the message was buffered, and what stood on the port, does not show after it. -/
theorem MessageAppended.of_buffered {s t u : State} {rev : Bool} {content : List Byte}
    (hu : u = { s with
      dfMlen := u.dfMlen
      dfMbuf := u.dfMbuf
      rspValid := u.rspValid
      rspRes := u.rspRes
      rspErr := u.rspErr })
    (h : MessageAppended u.terminated t rev content) : MessageAppended s t rev content := by
  rw [hu] at h
  cases rev <;>
    exact ⟨h.rspErr, h.rspRes, h.dfErr, h.dfMlen, h.ckWarn, h.count, h.ovf, h.otherCount,
      h.otherOvf, h.ram⟩

theorem checksum_ne_eox (b : Byte) : checksum b ≠ 0xF7 := by
  intro h
  have hnum := (checksum_eq_iff b 0xF7).mp h
  rw [show (0xF7 : Byte).toNat = 247 from rfl] at hnum
  omega

/-- A whole message pushed into an empty buffer is accepted, whatever STRICT is. -/
theorem runInstrs_wholeMessage {s : State} {h m l : Byte} {content : List Byte}
    (herr : s.dfErr = .ok) (hlen : s.dfMlen = 0) (hh : h ≠ 0xF7) (hm : m ≠ 0xF7) (hl : l ≠ 0xF7)
    (hcontent : 0xF7 ∉ content) (hsize : content.length ≤ 256)
    (hroom : s.regionCount (isReverb h m) ≤ regionSize (isReverb h m)) :
    ∃ t, runInstrs (dfsend (wholeMessage h m l content)) s = some t
      ∧ MessageAppended s t (isReverb h m) content := by
  have hempty : s.dfMlen.toNat = 0 := congrArg BitVec.toNat hlen
  have hlast : wholeMessage h m l content
      = ([0xF0, 0x41, 0x00, 0x14, 0x12, h, m, l] ++ content
          ++ [checksum (sumBytes ([h, m, l] ++ content))]) ++ [0xF7] := by
    simp [wholeMessage]
  generalize hheld : [0xF0, 0x41, 0x00, 0x14, 0x12, h, m, l] ++ content
    ++ [checksum (sumBytes ([h, m, l] ++ content))] = held at hlast
  have hheldLen : held.length = content.length + 9 := by simp [← hheld]
  have heox : 0xF7 ∉ held := by
    simp only [← hheld, List.mem_append, List.mem_cons, List.not_mem_nil, or_false, not_or]
    exact ⟨⟨⟨by decide, by decide, by decide, by decide, by decide, hh.symm, hm.symm, hl.symm⟩,
      hcontent⟩, (checksum_ne_eox _).symm⟩
  obtain ⟨u, hrun, hu, hulen, huslice⟩ := runInstrs_dfsend_buffers herr (by omega) heox
  have hmessage : pendingMessage u = wholeMessage h m l content := by
    rw [pendingMessage, huslice, hempty, hlast]
    rfl
  have hmin : 9 ≤ u.dfMlen.toNat := by omega
  have huerr : u.dfErr = .ok := by rw [hu]; exact herr
  have hexec := exec_dfpush_eox huerr (show u.dfMlen.toNat ≤ 265 by omega)
  rw [State.completeMessage_of_checksum hmin (by rw [hmessage, wholeMessage_header])
    (by rw [hmessage]; exact wholeMessage_checksumMatches h m l content)] at hexec
  refine ⟨u.terminated.acceptMessage (u.dfMlen.toNat + 1 - 10), ?_,
    .of_buffered hu (.of_acceptMessage ?_ (by omega) ?_ huerr rfl ?_)⟩
  · rw [hlast, dfsend, List.map_append, runInstrs_append_eq_some]
    exact ⟨u, hrun, runInstrs_cons hexec []⟩
  · rw [State.terminated_content hmin, hmessage, wholeMessage_content]
  · rw [State.terminated_mbufRead (by omega), State.terminated_mbufRead (by omega), hmessage]
    rfl
  · rw [hu]
    cases hside : isReverb h m <;> rw [hside] at hroom <;> exact hroom

/-- Settles O46: the region is the one of the triple, with its count and its base. -/
theorem pushedMessageIsAppended : Obligations.PushedMessageIsAppended := by
  intro s h m l content herr hlen hp hr hh hm hl hcontent hsize
  have hroom : s.regionCount (isReverb h m) ≤ regionSize (isReverb h m) := by
    cases isReverb h m
    · exact hp
    · exact hr
  obtain ⟨t, hrun, happended⟩ := runInstrs_wholeMessage herr hlen hh hm hl hcontent hsize hroom
  refine ⟨t, hrun, happended.rspErr, happended.dfErr, happended.dfMlen, happended.ckWarn, ?_⟩
  cases hside : isReverb h m <;> rw [hside] at happended
  · exact ⟨happended.rspRes, BitVec.eq_of_toNat_eq happended.otherCount, happended.count,
      happended.ram⟩
  · exact ⟨happended.rspRes, BitVec.eq_of_toNat_eq happended.otherCount, happended.count,
      happended.ram⟩

end Sys2Proof.Machine

/-! ## Round trips through the framer and the deframer (46_deframer R232, R233) -/

namespace Sys2Proof.Machine

/-- A generated message is a whole message of its triple and its chunk of the image. -/
theorem frameMessage_eq_wholeMessage (img : Nat → Byte) (B : BitVec 21) (s e : Nat) :
    frameMessage img B s e =
      wholeMessage (enc21 (B + BitVec.ofNat 21 s)).h (enc21 (B + BitVec.ofNat 21 s)).m
        (enc21 (B + BitVec.ofNat 21 s)).l ((List.range' s (e - s)).map img) := rfl

theorem ne_eox_of_le {b : Byte} (h : b.toNat ≤ 0x7F) : b ≠ 0xF7 := by
  rintro rfl
  exact absurd h (by decide)

/-- Content that RAM holds already where the append puts it changes no read of RAM. -/
theorem ramAppended.same {s t : State} {base size count : Nat} {content : List Byte}
    (h : ramAppended s t base size count content)
    (hsame : ∀ j (hj : j < content.length), content[j] = s.ramRead (base + count + j)) (a : Nat) :
    t.ramRead a = s.ramRead a := by
  obtain ⟨hnew, hold⟩ := h
  by_cases ha : base + count ≤ a ∧ a < base + min (count + content.length) size
  · have hj : a - (base + count) < content.length := by omega
    have haddr : base + count + (a - (base + count)) = a := by omega
    have hbyte := hnew (a - (base + count)) hj (by omega)
    rwa [hsame _ hj, haddr] at hbyte
  · exact hold a ha

/-- The deframer has taken the image's first `e` bytes over RAM that holds the image: patch memory
fills first, then reverb memory, and no read of RAM has changed. -/
structure Received (s t : State) (e : Nat) : Prop where
  dfErr : t.dfErr = .ok
  dfMlen : t.dfMlen = 0
  ckWarn : t.ckWarn = false
  patch : t.regionCount false = min e 0x7000 ∧ t.regionOvf false = false
  reverb : t.regionCount true = e - 0x7000 ∧ t.regionOvf true = false
  ram : ∀ a, t.ramRead a = s.ramRead a

/-- The region of a chunk that begins at offset `p` of the bank, and the count of that region when
every byte before it was received. -/
theorem Received.region {s t : State} {p : Nat} {rev : Bool} (h : Received s t p)
    (hrev : rev = true ↔ 0x7000 ≤ p) :
    regionBase rev + t.regionCount rev = p ∧ t.regionOvf rev = false := by
  cases rev with
  | true =>
    have hp := hrev.mp rfl
    refine ⟨?_, h.reverb.2⟩
    rw [h.reverb.1, regionBase, if_pos rfl, Config.rBase]
    omega
  | false =>
    have hp : ¬ 0x7000 ≤ p := fun hp => nomatch hrev.mpr hp
    refine ⟨?_, h.patch.2⟩
    rw [h.patch.1, regionBase, if_neg (by decide), Config.pBase]
    omega

/-- One generated message, received over the image it was made from. -/
theorem Received.message {s t : State} {p e : Nat} (h : Received s t p) (hp : p % 256 = 0)
    (hpe : p < e) (hchunk : e ≤ p + 256) (he : e ≤ 0x8780) (hclean : ∀ a, a < e → s.ramRead a ≠ 0xF7) :
    ∃ u, runInstrs (dfsend (frameMessage s.ramRead 0x8000 p e)) t = some u ∧ Received s u e := by
  obtain ⟨hh, hm, hl⟩ := enc21_inRange (0x8000 + BitVec.ofNat 21 p)
  generalize hrev : isReverb (enc21 (0x8000 + BitVec.ofNat 21 p)).h
    (enc21 (0x8000 + BitVec.ofNat 21 p)).m = rev
  have hside : rev = true ↔ 0x7000 ≤ p := by
    rw [← hrev]
    exact reverbBoundaryIsTheRamBoundary p (by omega)
  obtain ⟨hcount, hovf⟩ := h.region hside
  have hpatch := h.patch
  have hreverb := h.reverb
  have hfits : t.regionCount rev + (e - p) ≤ regionSize rev := by
    cases rev with
    | true => exact show _ ≤ 0x1780 by omega
    | false =>
      have hp' : ¬ 0x7000 ≤ p := fun hp' => nomatch hside.mpr hp'
      exact show _ ≤ 0x7000 by omega
  have hlen : ((List.range' p (e - p)).map s.ramRead).length = e - p := by simp
  have hcontent : 0xF7 ∉ (List.range' p (e - p)).map s.ramRead := by
    simp only [List.mem_map, List.mem_range'_1, not_exists, not_and]
    exact fun a ha => hclean a (by omega)
  obtain ⟨u, hrun, happ⟩ := runInstrs_wholeMessage h.dfErr h.dfMlen (ne_eox_of_le hh)
    (ne_eox_of_le hm) (ne_eox_of_le hl) hcontent (by omega) (by rw [hrev]; omega)
  rw [hrev] at happ
  refine ⟨u, hrun, ?_⟩
  have hram : ∀ a, u.ramRead a = s.ramRead a := fun a => by
    rw [happ.ram.same (fun j hj => ?_) a, h.ram]
    rw [hcount, h.ram]
    simp
  have hcount' : u.regionCount rev = t.regionCount rev + (e - p) := by
    rw [happ.count, hlen, Nat.min_eq_left hfits]
  have hovf' : u.regionOvf rev = false := by
    rw [happ.ovf, hovf, hlen, decide_eq_false (Nat.not_lt.mpr hfits), Bool.or_false]
  have hother := happ.otherCount
  have hotherOvf := happ.otherOvf
  cases rev with
  | true =>
    have hp' := hside.mp rfl
    rw [Bool.not_true] at hother hotherOvf
    exact ⟨happ.dfErr, happ.dfMlen, happ.ckWarn.trans h.ckWarn,
      ⟨by omega, hotherOvf.trans hpatch.2⟩, ⟨by omega, hovf'⟩, hram⟩
  | false =>
    have hfits' : t.regionCount false + (e - p) ≤ 0x7000 := hfits
    rw [Bool.not_false] at hother hotherOvf
    exact ⟨happ.dfErr, happ.dfMlen, happ.ckWarn.trans h.ckWarn,
      ⟨by omega, hovf'⟩, ⟨by omega, hotherOvf.trans hreverb.2⟩, hram⟩

theorem runInstrs_dfsend_append {xs ys : List Byte} {s t u : State}
    (hxs : runInstrs (dfsend xs) s = some t) (hys : runInstrs (dfsend ys) t = some u) :
    runInstrs (dfsend (xs ++ ys)) s = some u := by
  rw [dfsend, List.map_append]
  exact runInstrs_append_eq_some.mpr ⟨t, hxs, hys⟩

/-- The first messages of the stream, received one after another. -/
theorem received_firstMessages {s t : State} {len n : Nat} (h : Received s t 0)
    (hlen : len ≤ 0x8780) (hclean : ∀ a, a < len → s.ramRead a ≠ 0xF7) (hn : n ≤ (len + 255) / 256) :
    ∃ u, runInstrs (dfsend (firstMessages s.ramRead 0x8000 len n)) t = some u
      ∧ Received s u (min (256 * n) len) := by
  induction n with
  | zero => exact ⟨t, rfl, by rwa [Nat.mul_zero, Nat.zero_min]⟩
  | succ n ih =>
    obtain ⟨u, hrun, hu⟩ := ih (by omega)
    rw [Nat.min_eq_left (show 256 * n ≤ len by omega)] at hu
    obtain ⟨v, hmessage, hv⟩ := hu.message (e := min (256 * n + 256) len) (by omega) (by omega)
      (by omega) (by omega) fun a ha => hclean a (by omega)
    rw [firstMessages_succ]
    exact ⟨v, runInstrs_dfsend_append hrun hmessage, hv⟩

/-- DFSTART and the stream of an image, sent back over RAM that holds it. -/
theorem received_frame (s : State) {len : Nat} (hlen : len ≤ 0x8780)
    (hclean : ∀ a, a < len → s.ramRead a ≠ 0xF7) :
    ∃ t, runInstrs ([.dfstart] ++ dfsend (frame s.ramRead len 0x8000)) s = some t
      ∧ Received s t len := by
  have hstart : ∃ t, exec .dfstart s = .next t ∧ Received s t 0 :=
    ⟨_, rfl, rfl, rfl, rfl, ⟨(Nat.zero_min _).symm, rfl⟩, ⟨(Nat.zero_sub _).symm, rfl⟩,
      fun _ => rfl⟩
  obtain ⟨t, hexec, ht⟩ := hstart
  obtain ⟨u, hrun, hu⟩ := received_firstMessages ht hlen hclean (Nat.le_refl _)
  rw [Nat.min_eq_right (by omega)] at hu
  exact ⟨u, (runInstrs_cons hexec _).trans hrun, hu⟩

/-- The framing and the deframing of an image from 0x8000, up to DFEND. -/
theorem framed_and_received {s : State} {len : BitVec 24} (habase : s.abase = 0x8000)
    (hlen : len.toNat ≤ 0x8780) (hclean : ∀ a, a < len.toNat → s.ramRead a ≠ 0xF7) :
    ∃ s₁ s₂ t stream, exec (.frstart len) s = .next s₁ ∧ s₁.rspRes.toNat = framingLength len.toNat
      ∧ popBytes s₁.rspRes.toNat s₁ = some (stream, s₂)
      ∧ runInstrs ([.dfstart] ++ dfsend stream) s₂ = some t ∧ Received s t len.toNat := by
  obtain ⟨s₁, s₂, hstart, hres, hemits, -⟩ := frstart_emits_frame s hlen
  have hram : s₂.ramRead = s.ramRead := hemits.ramRead.trans
    (funext (State.ramRead_of_ram_eq (exec_ram hstart ⟨nofun, nofun⟩)))
  obtain ⟨t, hrun, ht⟩ := received_frame s₂ hlen (by rwa [hram])
  rw [hram, ← habase] at hrun
  have hpops := hemits.popBytes
  rw [frame_length, ← hres] at hpops
  exact ⟨s₁, s₂, t, _, hstart, hres, hpops, hrun,
    { ht with ram := fun a => (ht.ram a).trans (congrFun hram a) }⟩

/-- DFEND after a stream answers both counts, with SIZE unless both regions are full. -/
theorem Received.dfend {s t : State} {len : Nat} (h : Received s t len) :
    ∃ u, exec .dfend t = .next u
      ∧ u.rspErr = (if t.dfPcnt.toNat ≠ 0x7000 ∨ t.dfRcnt.toNat ≠ 0x1780 then .size else .ok)
      ∧ u.rspRes = BitVec.ofNat 32 (t.dfRcnt.toNat * 65536 + t.dfPcnt.toNat)
      ∧ u.ckWarn = t.ckWarn ∧ u.dfPcnt = t.dfPcnt ∧ u.dfRcnt = t.dfRcnt ∧ u.ram = t.ram := by
  have hempty : ¬ t.dfMlen.toNat ≠ 0 := not_not_intro (congrArg BitVec.toNat h.dfMlen)
  have hp : ¬ t.pOvf = true := Bool.eq_false_iff.mp h.patch.2
  have hr : ¬ t.rOvf = true := Bool.eq_false_iff.mp h.reverb.2
  have hend := (dfendChecksTheSizes.1 t).trans
    ((if_neg (not_not_intro h.dfErr)).trans (if_neg hempty))
  by_cases hsize : t.dfPcnt.toNat ≠ 0x7000 ∨ t.dfRcnt.toNat ≠ 0x1780
  · rw [if_pos hsize]
    exact ⟨_, hend.trans (if_pos (.inr (.inr hsize))), rfl, rfl, rfl, rfl, rfl, rfl⟩
  · rw [if_neg hsize]
    exact ⟨_, hend.trans (if_neg (not_or.mpr ⟨hp, not_or.mpr ⟨hr, hsize⟩⟩)),
      rfl, rfl, rfl, rfl, rfl, rfl⟩

theorem runInstrs_then_dfend {is : List Instr} {s t u : State} (hrun : runInstrs is s = some t)
    (hend : exec .dfend t = .next u) : runInstrs (is ++ [.dfend]) s = some u :=
  runInstrs_append_eq_some.mpr ⟨t, hrun, runInstrs_cons hend []⟩

/-- Settles O48: every message comes back to the offset it was framed from, and both regions are
full in the end. -/
theorem wholeBankRoundTrip : Obligations.WholeBankRoundTrip := by
  intro s habase hclean
  have hlen : (0x8780 : BitVec 24).toNat = 0x8780 := rfl
  obtain ⟨s₁, s₂, t, stream, hstart, hres, hpops, hrun, ht⟩ :=
    framed_and_received (len := 0x8780) habase hlen.le (by rwa [hlen])
  rw [hlen] at hres ht
  obtain ⟨u, hend, herr, hword, hwarn, -, -, hram⟩ := ht.dfend
  have hp : t.dfPcnt.toNat = 0x7000 := ht.patch.1
  have hr : t.dfRcnt.toNat = 0x1780 := ht.reverb.1
  rw [hp, hr] at herr hword
  have hcount : s₁.rspRes.toNat = 36048 := hres
  rw [hcount] at hpops
  exact ⟨s₁, s₂, u, stream, hstart, hpops, runInstrs_then_dfend hrun hend, hword, herr,
    hwarn.trans ht.ckWarn, fun a _ => (State.ramRead_of_ram_eq hram a).trans (ht.ram a)⟩

/-- Settles O49: the image ends within patch memory, so reverb memory takes nothing and DFEND finds
it short. -/
theorem patchMemoryRoundTrip : Obligations.PatchMemoryRoundTrip := by
  intro s len habase hmin hmax hclean
  obtain ⟨s₁, s₂, t, stream, hstart, -, hpops, hrun, ht⟩ :=
    framed_and_received (len := len) habase (by omega) hclean
  obtain ⟨u, hend, herr, -, -, hpcnt, hrcnt, hram⟩ := ht.dfend
  have hp : t.dfPcnt.toNat = len.toNat := ht.patch.1.trans (Nat.min_eq_left hmax)
  have hr : t.dfRcnt.toNat = 0 := ht.reverb.1.trans (by omega)
  rw [hr, if_pos (.inr (by decide))] at herr
  refine ⟨s₁, s₂, u, stream, hstart, hpops, runInstrs_then_dfend hrun hend, herr, hpcnt ▸ hp, ?_,
    fun a _ => (State.ramRead_of_ram_eq hram a).trans (ht.ram a)⟩
  rw [hrcnt]
  exact BitVec.eq_of_toNat_eq hr

end Sys2Proof.Machine
